-- ==== Sys2Proof/Word.lean ====
section
/-! DEFINITION. Sys2Proof/Word.lean: the words of the block's interface (spec 00_scope.md R3, 20_memory.md R24, R27,
30_encoding.md R37, R44). Bit 0 is the least significant bit of every one of them. -/

namespace Sys2Proof

/-- A host register, a packet byte: 8 bits (R24, R28). -/
abbrev Byte := BitVec 8

/-- An event word: every event is one 32-bit word (R37). -/
abbrev EventWord := BitVec 32

/-- An edge width in ticks, unsigned, `TW = 16` bits (R3, R44). -/
abbrev Width := BitVec 16

/-- A host register address, 0x0 to 0xF (R24, R44). -/
abbrev RegAddr := BitVec 4

/-- The bits of a byte in wire order: bit 7 first, bit 0 last (R25, R47). -/
def byteBits (v : Byte) : List Bool :=
  [v[7], v[6], v[5], v[4], v[3], v[2], v[1], v[0]]

end Sys2Proof
end

