-- ==== Sys2Proof/Config.lean ====
section
/-! DEFINITION. Sys2Proof/Config.lean: the parameters of the block (spec 00_scope.md R3 to R6, 92_eei_decisions.md D2 to
D4, D8, D16, D19, D30) and the two values the spec leaves open. A machine carries one `Config` and no step changes it. -/

namespace Sys2Proof

/-- Byte `i` of the packet buffer after power-on: unspecified, a draw per byte (R3 `BUF_INIT`, R126; log entry 5). A free
value: it has no body, so nothing can be proved of which byte it is. -/
opaque Config.freeBufByte : Nat → Byte

/-- Where a host maps register 0x0: a platform parameter that no rule depends on (R3 `BASE`, R121; log entry 6). A free
value. -/
opaque Config.freeBase : Nat

/-- The thirteen parameters of R3, under the names of its table. -/
structure Config where
  /-- `TW`: width in bits of an edge width measurement. -/
  tw : Nat
  /-- `TICK_NS`: duration of one tick in nanoseconds. No rule of the machine reads it. -/
  tickNs : Nat
  /-- `MIN1`: smallest width classified as a one half-bit, inclusive, in ticks. -/
  min1 : Nat
  /-- `MAX1`: smallest width above the one range, an exclusive bound. -/
  max1 : Nat
  /-- `MIN0`: smallest width classified as a zero half-bit, inclusive. -/
  min0 : Nat
  /-- `MAX0`: largest width classified as a zero half-bit, inclusive. -/
  max0 : Nat
  /-- `PREAMBLE_MIN`: least count of one-bits a preamble needs. -/
  preambleMin : Nat
  /-- `MAX_LEN`: greatest packet length in bytes. -/
  maxLen : Nat
  /-- `BYTE_BITS`: data bits per byte. -/
  byteBits : Nat
  /-- `VALID_LEN_MIN`: least packet length the validator accepts. -/
  validLenMin : Nat
  /-- `PCOUNT_MAX`: saturation value of the preamble counter. -/
  pcountMax : Nat
  /-- `BUF_INIT`: contents of the six buffer bytes after power-on reset. -/
  bufInit : Vector Byte 6
  /-- `BASE`: host address of register 0x0. No rule of the machine reads it. -/
  base : Nat
deriving DecidableEq, Repr

/-- Ticks in `us` microseconds at this configuration's tick (R5: the ranges in µs, "doubled for ticks"). -/
def Config.ticksOfMicros (c : Config) (us : Nat) : Nat := us * 1000 / c.tickNs

/-- Nanoseconds that pass without an edge before the front end reports OVF: 2^TW ticks (R51, R120). -/
def Config.overflowNs (c : Config) : Nat := 2 ^ c.tw * c.tickNs

/-- The values this specification fixes (R3), with the open ones left free (log entries 5 and 6). -/
def Config.default : Config where
  tw := 16
  tickNs := 500
  min1 := 104
  max1 := 128
  min0 := 180
  max0 := 20000
  preambleMin := 12
  maxLen := 6
  byteBits := 8
  validLenMin := 3
  pcountMax := 255
  bufInit := #v[Config.freeBufByte 0, Config.freeBufByte 1, Config.freeBufByte 2, Config.freeBufByte 3,
    Config.freeBufByte 4, Config.freeBufByte 5]
  base := Config.freeBase

end Sys2Proof
end

