-- ==== Sys2Proof/Syntax.lean ====
section
/-! DEFINITION. Sys2Proof/Syntax.lean: the events, one constructor per row of spec/opcode_table.json (30_encoding.md
R37 to R45). The operands carry their widths in their types (R44), so every term of `Instr` is well formed. -/

namespace Sys2Proof

/-- The block's 34 events: EDGE, OVF, a host write to each of the 16 register addresses and a host read of each (R45). -/
inductive Instr where
  /-- EDGE: one edge, `w` ticks after the previous one (R38, R52). -/
  | edge (w : Width)
  /-- OVF: timer overflow (R39, R79). -/
  | ovf
  /-- WR STATUS: host write of `d` to address 0x0 (R40, R80). -/
  | wrStatus (d : Byte)
  /-- WR CONTROL: host write of `d` to address 0x1 (R40, R81). -/
  | wrControl (d : Byte)
  /-- WR LEN: host write of `d` to address 0x2 (R40, R80). -/
  | wrLen (d : Byte)
  /-- WR XOR: host write of `d` to address 0x3 (R40, R80). -/
  | wrXor (d : Byte)
  /-- WR DIAG: host write of `d` to address 0x4 (R40, R80). -/
  | wrDiag (d : Byte)
  /-- WR PCOUNT: host write of `d` to address 0x5 (R40, R80). -/
  | wrPcount (d : Byte)
  /-- WR BITCNT: host write of `d` to address 0x6 (R40, R80). -/
  | wrBitcnt (d : Byte)
  /-- WR CUR: host write of `d` to address 0x7 (R40, R80). -/
  | wrCur (d : Byte)
  /-- WR BUF0: host write of `d` to address 0x8 (R40, R80). -/
  | wrBuf0 (d : Byte)
  /-- WR BUF1: host write of `d` to address 0x9 (R40, R80). -/
  | wrBuf1 (d : Byte)
  /-- WR BUF2: host write of `d` to address 0xA (R40, R80). -/
  | wrBuf2 (d : Byte)
  /-- WR BUF3: host write of `d` to address 0xB (R40, R80). -/
  | wrBuf3 (d : Byte)
  /-- WR BUF4: host write of `d` to address 0xC (R40, R80). -/
  | wrBuf4 (d : Byte)
  /-- WR BUF5: host write of `d` to address 0xD (R40, R80). -/
  | wrBuf5 (d : Byte)
  /-- WR OUTCOME: host write of `d` to address 0xE (R40, R80). -/
  | wrOutcome (d : Byte)
  /-- WR reserved 0xF: host write of `d` to address 0xF (R40, R80). -/
  | wrRsvdF (d : Byte)
  /-- RD STATUS: host read of address 0x0 (R41, R94). -/
  | rdStatus
  /-- RD CONTROL: host read of address 0x1 (R41, R95). -/
  | rdControl
  /-- RD LEN: host read of address 0x2 (R41, R96). -/
  | rdLen
  /-- RD XOR: host read of address 0x3 (R41, R97). -/
  | rdXor
  /-- RD DIAG: host read of address 0x4 (R41, R98). -/
  | rdDiag
  /-- RD PCOUNT: host read of address 0x5 (R41, R99). -/
  | rdPcount
  /-- RD BITCNT: host read of address 0x6 (R41, R100). -/
  | rdBitcnt
  /-- RD CUR: host read of address 0x7 (R41, R101). -/
  | rdCur
  /-- RD BUF0: host read of address 0x8 (R41, R102). -/
  | rdBuf0
  /-- RD BUF1: host read of address 0x9 (R41, R102). -/
  | rdBuf1
  /-- RD BUF2: host read of address 0xA (R41, R102). -/
  | rdBuf2
  /-- RD BUF3: host read of address 0xB (R41, R102). -/
  | rdBuf3
  /-- RD BUF4: host read of address 0xC (R41, R102). -/
  | rdBuf4
  /-- RD BUF5: host read of address 0xD (R41, R102). -/
  | rdBuf5
  /-- RD OUTCOME: host read of address 0xE (R41, R103). -/
  | rdOutcome
  /-- RD reserved 0xF: host read of address 0xF (R41, R104). -/
  | rdRsvdF
deriving DecidableEq, Repr

end Sys2Proof
end

