-- ==== Sys2Proof/WellFormed.lean ====
section
/-! DEFINITION. Sys2Proof/WellFormed.lean: what a configuration and an event word must satisfy (spec 00_scope.md R3, R4,
R6; 30_encoding.md R38 to R43). `Instr` needs no check of its own: its operands carry their widths (R44). -/

namespace Sys2Proof

/-- The threshold constraint of R4: `0 < MIN1 < MAX1 <= MIN0 <= MAX0 <= 2^TW - 1`. -/
abbrev Config.ThresholdsOk (c : Config) : Prop :=
  0 < c.min1 ∧ c.min1 < c.max1 ∧ c.max1 ≤ c.min0 ∧ c.min0 ≤ c.max0 ∧ c.max0 ≤ 2 ^ c.tw - 1

/-- The parameters whose value the specification fixes hold that value (R3, R6, R38). The thresholds, `TICK_NS`,
`BUF_INIT` and `BASE` are left to the configuration (log entry 4). -/
abbrev Config.FixedOk (c : Config) : Prop :=
  c.tw = 16 ∧ c.preambleMin = 12 ∧ c.maxLen = 6 ∧ c.byteBits = 8 ∧ c.validLenMin = 3 ∧ c.pcountMax = 255

/-- The configurations the model has a meaning for. Any other is refused (R4; 93_implementation_defined.md row 6). -/
def Config.wf (c : Config) : Bool := decide (c.ThresholdsOk ∧ c.FixedOk)

/-- The configuration is one the model has a meaning for. -/
abbrev Config.WellFormed (c : Config) : Prop := c.wf = true

/-- The kind field `K = word[31:28]`, which a decoder reads first (R37). -/
def EventWord.kind (w : EventWord) : BitVec 4 := w.extractLsb' 28 4

/-- `K` is one of the four defined kinds (R37, R42). -/
abbrev EventWord.KindDefined (w : EventWord) : Prop :=
  EventWord.kind w = 0x1#4 ∨ EventWord.kind w = 0x2#4 ∨ EventWord.kind w = 0x3#4 ∨ EventWord.kind w = 0x4#4

/-- Every "reserved, must be 0" field of the word's format is 0: EDGE bits 27:16, OVF bits 27:0, WR bits 27:12, RD bits
27:12 and 7:0 (R38 to R41, R43). -/
abbrev EventWord.ReservedZero (w : EventWord) : Prop :=
  (EventWord.kind w = 0x1#4 → w.extractLsb' 16 12 = 0#12) ∧
  (EventWord.kind w = 0x2#4 → w.extractLsb' 0 28 = 0#28) ∧
  (EventWord.kind w = 0x3#4 → w.extractLsb' 12 16 = 0#16) ∧
  (EventWord.kind w = 0x4#4 → w.extractLsb' 12 16 = 0#16 ∧ w.extractLsb' 0 8 = 0#8)

/-- A word that spells an event; every other word is refused (R42, R43, R50). -/
abbrev EventWord.WellFormed (w : EventWord) : Prop := EventWord.KindDefined w ∧ EventWord.ReservedZero w

end Sys2Proof
end

