-- ==== Sys2Proof/Decode.lean ====
section
/-! DEFINITION. Sys2Proof/Decode.lean: the event-word decoder and encoder and the opcode table (spec 30_encoding.md R37 to
R45, R50; spec/opcode_table.json). Decoding is total on all words, rejects by name and reads no state. -/

namespace Sys2Proof

/-- Why a word spells no event. -/
inductive Reject where
  /-- `K` in {0x0, 0x5, ..., 0xF} (R42). -/
  | reservedKind
  /-- `K` is defined and a "reserved, must be 0" field is not 0 (R43). -/
  | reservedBits
deriving DecidableEq, Repr

/-- A host write to address `a`: one constructor per address (R40, R45). -/
def wrInstr (a : RegAddr) (d : Byte) : Instr :=
  match a with
  | 0x0#4 => .wrStatus d
  | 0x1#4 => .wrControl d
  | 0x2#4 => .wrLen d
  | 0x3#4 => .wrXor d
  | 0x4#4 => .wrDiag d
  | 0x5#4 => .wrPcount d
  | 0x6#4 => .wrBitcnt d
  | 0x7#4 => .wrCur d
  | 0x8#4 => .wrBuf0 d
  | 0x9#4 => .wrBuf1 d
  | 0xA#4 => .wrBuf2 d
  | 0xB#4 => .wrBuf3 d
  | 0xC#4 => .wrBuf4 d
  | 0xD#4 => .wrBuf5 d
  | 0xE#4 => .wrOutcome d
  | _ => .wrRsvdF d

/-- A host read of address `a`: one constructor per address (R41, R45). -/
def rdInstr (a : RegAddr) : Instr :=
  match a with
  | 0x0#4 => .rdStatus
  | 0x1#4 => .rdControl
  | 0x2#4 => .rdLen
  | 0x3#4 => .rdXor
  | 0x4#4 => .rdDiag
  | 0x5#4 => .rdPcount
  | 0x6#4 => .rdBitcnt
  | 0x7#4 => .rdCur
  | 0x8#4 => .rdBuf0
  | 0x9#4 => .rdBuf1
  | 0xA#4 => .rdBuf2
  | 0xB#4 => .rdBuf3
  | 0xC#4 => .rdBuf4
  | 0xD#4 => .rdBuf5
  | 0xE#4 => .rdOutcome
  | _ => .rdRsvdF

/-- Format E: `W = word[15:0]`, bits 27:16 reserved (R38). -/
def decodeEdge (w : EventWord) : Except Reject Instr :=
  if w.extractLsb' 16 12 = 0#12 then .ok (.edge (w.extractLsb' 0 16)) else .error .reservedBits

/-- Format O: bits 27:0 reserved (R39). -/
def decodeOvf (w : EventWord) : Except Reject Instr :=
  if w.extractLsb' 0 28 = 0#28 then .ok .ovf else .error .reservedBits

/-- Format HW: `A = word[11:8]`, `D = word[7:0]`, bits 27:12 reserved (R40). -/
def decodeWr (w : EventWord) : Except Reject Instr :=
  if w.extractLsb' 12 16 = 0#16 then .ok (wrInstr (w.extractLsb' 8 4) (w.extractLsb' 0 8)) else .error .reservedBits

/-- Format HR: `A = word[11:8]`, bits 27:12 and 7:0 reserved (R41). -/
def decodeRd (w : EventWord) : Except Reject Instr :=
  if w.extractLsb' 12 16 = 0#16 ∧ w.extractLsb' 0 8 = 0#8 then .ok (rdInstr (w.extractLsb' 8 4)) else .error .reservedBits

/-- The decoder: the kind selects the format (R37), the format's reserved bits must be 0 (R43). -/
def decode (w : EventWord) : Except Reject Instr :=
  if EventWord.kind w = 0x1#4 then decodeEdge w
  else if EventWord.kind w = 0x2#4 then decodeOvf w
  else if EventWord.kind w = 0x3#4 then decodeWr w
  else if EventWord.kind w = 0x4#4 then decodeRd w
  else .error .reservedKind

/-- The word of format E: `K = 0b0001`, twelve zero bits, `W` (R38). -/
def encodeE (w : Width) : EventWord := 0b0001#4 ++ 0#12 ++ w

/-- The word of format O: `K = 0b0010` and zero bits (R39). -/
def encodeO : EventWord := 0b0010#4 ++ 0#28

/-- The word of format HW: `K = 0b0011`, sixteen zero bits, `A`, `D` (R40). -/
def encodeHW (a : RegAddr) (d : Byte) : EventWord := 0b0011#4 ++ 0#16 ++ a ++ d

/-- The word of format HR: `K = 0b0100`, sixteen zero bits, `A`, eight zero bits (R41). -/
def encodeHR (a : RegAddr) : EventWord := 0b0100#4 ++ 0#16 ++ a ++ 0#8

/-- The encoder: the one word of each event (R38 to R41, R45). -/
def encode (i : Instr) : EventWord :=
  match i with
  | .edge w => encodeE w
  | .ovf => encodeO
  | .wrStatus d => encodeHW 0x0 d
  | .wrControl d => encodeHW 0x1 d
  | .wrLen d => encodeHW 0x2 d
  | .wrXor d => encodeHW 0x3 d
  | .wrDiag d => encodeHW 0x4 d
  | .wrPcount d => encodeHW 0x5 d
  | .wrBitcnt d => encodeHW 0x6 d
  | .wrCur d => encodeHW 0x7 d
  | .wrBuf0 d => encodeHW 0x8 d
  | .wrBuf1 d => encodeHW 0x9 d
  | .wrBuf2 d => encodeHW 0xA d
  | .wrBuf3 d => encodeHW 0xB d
  | .wrBuf4 d => encodeHW 0xC d
  | .wrBuf5 d => encodeHW 0xD d
  | .wrOutcome d => encodeHW 0xE d
  | .wrRsvdF d => encodeHW 0xF d
  | .rdStatus => encodeHR 0x0
  | .rdControl => encodeHR 0x1
  | .rdLen => encodeHR 0x2
  | .rdXor => encodeHR 0x3
  | .rdDiag => encodeHR 0x4
  | .rdPcount => encodeHR 0x5
  | .rdBitcnt => encodeHR 0x6
  | .rdCur => encodeHR 0x7
  | .rdBuf0 => encodeHR 0x8
  | .rdBuf1 => encodeHR 0x9
  | .rdBuf2 => encodeHR 0xA
  | .rdBuf3 => encodeHR 0xB
  | .rdBuf4 => encodeHR 0xC
  | .rdBuf5 => encodeHR 0xD
  | .rdOutcome => encodeHR 0xE
  | .rdRsvdF => encodeHR 0xF

/-- One row of spec/opcode_table.json: a word `w` is of the row when `w &&& mask = pattern`. -/
structure OpRow where
  mnemonic : String
  pattern : EventWord
  mask : EventWord
deriving DecidableEq, Repr

/-- The word is of this row (R45). -/
abbrev OpRow.Matches (r : OpRow) (w : EventWord) : Prop := w &&& r.mask = r.pattern

/-- The rows of formats E and O (R38, R39). -/
def eventRows : List OpRow := [
  ⟨"EDGE", 0x10000000, 0xFFFF0000⟩,
  ⟨"OVF", 0x20000000, 0xFFFFFFFF⟩]

/-- The 16 rows of format HW (R40). -/
def writeRows : List OpRow := [
  ⟨"WR_STATUS", 0x30000000, 0xFFFFFF00⟩,
  ⟨"WR_CONTROL", 0x30000100, 0xFFFFFF00⟩,
  ⟨"WR_LEN", 0x30000200, 0xFFFFFF00⟩,
  ⟨"WR_XOR", 0x30000300, 0xFFFFFF00⟩,
  ⟨"WR_DIAG", 0x30000400, 0xFFFFFF00⟩,
  ⟨"WR_PCOUNT", 0x30000500, 0xFFFFFF00⟩,
  ⟨"WR_BITCNT", 0x30000600, 0xFFFFFF00⟩,
  ⟨"WR_CUR", 0x30000700, 0xFFFFFF00⟩,
  ⟨"WR_BUF0", 0x30000800, 0xFFFFFF00⟩,
  ⟨"WR_BUF1", 0x30000900, 0xFFFFFF00⟩,
  ⟨"WR_BUF2", 0x30000A00, 0xFFFFFF00⟩,
  ⟨"WR_BUF3", 0x30000B00, 0xFFFFFF00⟩,
  ⟨"WR_BUF4", 0x30000C00, 0xFFFFFF00⟩,
  ⟨"WR_BUF5", 0x30000D00, 0xFFFFFF00⟩,
  ⟨"WR_OUTCOME", 0x30000E00, 0xFFFFFF00⟩,
  ⟨"WR_RSVD_F", 0x30000F00, 0xFFFFFF00⟩]

/-- The 16 rows of format HR (R41). -/
def readRows : List OpRow := [
  ⟨"RD_STATUS", 0x40000000, 0xFFFFFFFF⟩,
  ⟨"RD_CONTROL", 0x40000100, 0xFFFFFFFF⟩,
  ⟨"RD_LEN", 0x40000200, 0xFFFFFFFF⟩,
  ⟨"RD_XOR", 0x40000300, 0xFFFFFFFF⟩,
  ⟨"RD_DIAG", 0x40000400, 0xFFFFFFFF⟩,
  ⟨"RD_PCOUNT", 0x40000500, 0xFFFFFFFF⟩,
  ⟨"RD_BITCNT", 0x40000600, 0xFFFFFFFF⟩,
  ⟨"RD_CUR", 0x40000700, 0xFFFFFFFF⟩,
  ⟨"RD_BUF0", 0x40000800, 0xFFFFFFFF⟩,
  ⟨"RD_BUF1", 0x40000900, 0xFFFFFFFF⟩,
  ⟨"RD_BUF2", 0x40000A00, 0xFFFFFFFF⟩,
  ⟨"RD_BUF3", 0x40000B00, 0xFFFFFFFF⟩,
  ⟨"RD_BUF4", 0x40000C00, 0xFFFFFFFF⟩,
  ⟨"RD_BUF5", 0x40000D00, 0xFFFFFFFF⟩,
  ⟨"RD_OUTCOME", 0x40000E00, 0xFFFFFFFF⟩,
  ⟨"RD_RSVD_F", 0x40000F00, 0xFFFFFFFF⟩]

/-- The opcode table, 34 rows (R45). -/
def opcodeTable : List OpRow := eventRows ++ (writeRows ++ readRows)

/-- The mnemonic of an event's row in spec/opcode_table.json. -/
def mnemonic (i : Instr) : String :=
  match i with
  | .edge _ => "EDGE"
  | .ovf => "OVF"
  | .wrStatus _ => "WR_STATUS"
  | .wrControl _ => "WR_CONTROL"
  | .wrLen _ => "WR_LEN"
  | .wrXor _ => "WR_XOR"
  | .wrDiag _ => "WR_DIAG"
  | .wrPcount _ => "WR_PCOUNT"
  | .wrBitcnt _ => "WR_BITCNT"
  | .wrCur _ => "WR_CUR"
  | .wrBuf0 _ => "WR_BUF0"
  | .wrBuf1 _ => "WR_BUF1"
  | .wrBuf2 _ => "WR_BUF2"
  | .wrBuf3 _ => "WR_BUF3"
  | .wrBuf4 _ => "WR_BUF4"
  | .wrBuf5 _ => "WR_BUF5"
  | .wrOutcome _ => "WR_OUTCOME"
  | .wrRsvdF _ => "WR_RSVD_F"
  | .rdStatus => "RD_STATUS"
  | .rdControl => "RD_CONTROL"
  | .rdLen => "RD_LEN"
  | .rdXor => "RD_XOR"
  | .rdDiag => "RD_DIAG"
  | .rdPcount => "RD_PCOUNT"
  | .rdBitcnt => "RD_BITCNT"
  | .rdCur => "RD_CUR"
  | .rdBuf0 => "RD_BUF0"
  | .rdBuf1 => "RD_BUF1"
  | .rdBuf2 => "RD_BUF2"
  | .rdBuf3 => "RD_BUF3"
  | .rdBuf4 => "RD_BUF4"
  | .rdBuf5 => "RD_BUF5"
  | .rdOutcome => "RD_OUTCOME"
  | .rdRsvdF => "RD_RSVD_F"

/-- The event that a table word spells: bit 0 of `w` is bit 0 of the one event word, and every bit above `nbits` is 0
(R27, R37; log entry 11). -/
def decodeTableWord (nbits w : Nat) : Option Instr :=
  match decode (BitVec.ofNat 32 (w % 2 ^ nbits)) with
  | .ok i => some i
  | .error _ => none

end Sys2Proof
end

