-- ==== Sys2Proof/Machine/State.lean ====
section
/-! DEFINITION. Sys2Proof/Machine/State.lean: the block's state, exactly the elements of spec 10_state.md R7, and beside it
the model's own fields: the configuration, the output of the last step and the events still to come. -/

namespace Sys2Proof.Machine

/-- The framing phase (R8). Codes 6 and 7 are never held, so they have no constructor (log entry 9). -/
inductive FState where
  /-- Looking for the first one-bit of a preamble. -/
  | idle
  /-- Counting one-bits. -/
  | preamble
  /-- A byte has just completed with fewer than `MAX_LEN` bytes framed. -/
  | startBit
  /-- Accumulating the bits of a byte. -/
  | dataBit
  /-- `MAX_LEN` bytes have been framed and the next bit must be the end bit. -/
  | endBit
  /-- A packet is complete and published. -/
  | done
deriving DecidableEq, Repr

/-- The outcome codes of 60_exceptions.md R111. Codes 0xD to 0xF are never produced, so they have no constructor (log
entry 9). -/
inductive OutcomeCode where
  | none | ignored | half | resync | bit0 | bit1 | packet | ovfReset
  | errWidth | errPhase | errPreamble | errTooLong | errDone
deriving DecidableEq, Repr

/-- The architectural state: one field per row of R7, under the names of its table. -/
structure Block where
  /-- 3 bits: the framing phase (R8). -/
  fstate : FState
  /-- 1 bit: one half-bit has been seen and waits for its partner (R9). -/
  hp_valid : Bool
  /-- 1 bit: the class of the latched half, 0 = ZERO, 1 = ONE (R9). -/
  hp_class : Bool
  /-- 8 bits: consecutive one-bits of the current preamble, saturating (R10). -/
  pcount : BitVec 8
  /-- 3 bits: data bits already shifted into `cur` (R11). -/
  bitcnt : BitVec 3
  /-- 8 bits: the byte accumulator (R12). -/
  cur : Byte
  /-- 3 bits: bytes of the current or last packet (R13). -/
  len : BitVec 3
  /-- 6 x 8 bits: the packet bytes in order of reception (R14). -/
  buf : Vector Byte 6
  /-- 1 bit: the Completed-Packet Flag (R16). -/
  ready : Bool
  /-- 1 bit: the capture enable (R17). -/
  armed : Bool
  /-- 4 bits: the code of the most recent EDGE or OVF (R15). -/
  outcome : OutcomeCode
deriving DecidableEq, Repr

/-- What one step answers beside the next state: 00_scope.md R2 "(next state, outcome, read data)". It is not state of the
block: each step replaces it and no rule reads it (log entry 3). -/
structure Output where
  /-- The outcome code emitted by an EDGE or OVF event (§4 `emit O`, R111). -/
  emitted : Option OutcomeCode
  /-- The byte returned by a host read (R41, R93). -/
  rdata : Option Byte
deriving DecidableEq, Repr

/-- What the environment presents to the block (log entries 1 and 7). -/
inductive Input where
  /-- One event word (R37). -/
  | event (w : EventWord)
  /-- Power-on reset, an input outside the event stream, with its draw of the six buffer bytes (R125, R126). -/
  | powerOn (bufInit : Vector Byte 6)
deriving DecidableEq, Repr

/-- The machine. `block` is the architectural state of R7. `cfg` is the configuration argument of R3, which no step
changes. `out` is what the last step answered. `inputs` are the events still to come, oldest first, in the one total
order of R31; a statement over every state therefore covers every order the environment may choose (R2, R114). -/
structure State where
  cfg : Config
  block : Block
  out : Output
  inputs : List Input
deriving DecidableEq, Repr

/-- Reasons the machine stops with a fault. -/
inductive Fault where
  /-- Raised by ByteDone (42_packet_framer.md R70) when `len` leaves no room in `buf`. R70 says it cannot happen ("`len <
  MAX_LEN` holds on entry"), and no safe state raises it. Safe: the model stops where the spec gives no
  effect (log entry 8). -/
  | bufferIndexOutOfRange
deriving DecidableEq, Repr

/-- Reasons the model gives no meaning. -/
inductive Refusal where
  /-- Raised by `exec` for an instruction that has no meaning in the model yet. Safe: it stops. -/
  | notModelled (mnemonic : String)
  /-- Raised by `step` for a word of a reserved kind, which spells no event (R42). Safe: it stops, as the spec says. -/
  | reservedKind
  /-- Raised by `step` for a word with a nonzero reserved field (R43). Safe: it stops, as the spec says. -/
  | reservedBits
  /-- Raised by `step` for a configuration that R4 refuses or that differs from the values R3 fixes. Safe: it stops, as
  the spec says (log entry 4). -/
  | badConfig
deriving DecidableEq, Repr

/-- The answer of a step that emits no outcome and returns no byte. -/
def Output.silent : Output := ⟨.none, .none⟩

/-- The answer of an event that emits `o` (§4 `emit O`). -/
def Output.event (o : OutcomeCode) : Output := ⟨some o, .none⟩

/-- The answer of a host read that returns `d` (R93). -/
def Output.data (d : Byte) : Output := ⟨.none, some d⟩

/-- The block after power-on reset with the buffer bytes `bufInit` (R125, R126). -/
def Block.powerOn (bufInit : Vector Byte 6) : Block where
  fstate := .idle
  hp_valid := false
  hp_class := false
  pcount := 0
  bitcnt := 0
  cur := 0
  len := 0
  buf := bufInit
  ready := false
  armed := false
  outcome := .none

/-- A machine of configuration `cfg` right after power-on reset, with the events `inputs` to come. -/
def State.powerOn (cfg : Config) (inputs : List Input) : State where
  cfg := cfg
  block := Block.powerOn cfg.bufInit
  out := Output.silent
  inputs := inputs

/-- The machine right after reset (R126), at the parameter values of R3, with no event presented yet. -/
def State.reset : State := State.powerOn Config.default []

end Sys2Proof.Machine
end

