-- ==== Sys2Proof/Machine/Operands.lean ====
section
/-! DEFINITION. Sys2Proof/Machine/Operands.lean: what the operands of the events mean: the class of an edge width (spec
40_edge_classifier.md R53), the command of a CONTROL byte (43_control_and_overflow.md R81) and the codes of the state's
named values (10_state.md R7, 60_exceptions.md R111). -/

namespace Sys2Proof.Machine

/-- The classifier's verdict on a width (R53). -/
inductive WidthClass where
  | one | zero | invalid
deriving DecidableEq, Repr

/-- `Classify(W)`: the one range is half-open and the zero range is closed, tested in this order (R53). It reads nothing
but the width and the thresholds (R55). -/
def classify (c : Config) (w : Width) : WidthClass :=
  if c.min1 ≤ w.toNat ∧ w.toNat < c.max1 then .one
  else if c.min0 ≤ w.toNat ∧ w.toNat ≤ c.max0 then .zero
  else .invalid

/-- The class of a half-bit of value `b`: 1 is ONE, 0 is ZERO (R56). -/
def halfClass (b : Bool) : WidthClass := if b then .one else .zero

/-- What a CONTROL byte asks for. -/
inductive Command where
  | start | clearReady | nothing
deriving DecidableEq, Repr

/-- Bit 0 is START and covers bit 1, bit 1 is CLEAR_READY, bits 7:2 are ignored (R81, R84). -/
def commandOf (d : Byte) : Command :=
  if d[0] then .start else if d[1] then .clearReady else .nothing

/-- The 3-bit code of a framing phase (R7). -/
def FState.code (f : FState) : BitVec 3 :=
  match f with
  | .idle => 0
  | .preamble => 1
  | .startBit => 2
  | .dataBit => 3
  | .endBit => 4
  | .done => 5

/-- The 4-bit code of an outcome (R111). -/
def OutcomeCode.code (o : OutcomeCode) : BitVec 4 :=
  match o with
  | .none => 0x0
  | .ignored => 0x1
  | .half => 0x2
  | .resync => 0x3
  | .bit0 => 0x4
  | .bit1 => 0x5
  | .packet => 0x6
  | .ovfReset => 0x7
  | .errWidth => 0x8
  | .errPhase => 0x9
  | .errPreamble => 0xA
  | .errTooLong => 0xB
  | .errDone => 0xC

/-- The classes of outcome codes (R111 column "kind", R112). -/
inductive OutcomeKind where
  | noEvent | info | reset | timingError | framingError | logicError
deriving DecidableEq, Repr

/-- The kind of each code (R111, R112). -/
def OutcomeCode.kind (o : OutcomeCode) : OutcomeKind :=
  match o with
  | .none => .noEvent
  | .ignored | .half | .resync | .bit0 | .bit1 | .packet => .info
  | .ovfReset => .reset
  | .errWidth | .errPhase => .timingError
  | .errPreamble | .errTooLong => .framingError
  | .errDone => .logicError

/-- The five codes that the error entry records (R110, R112). -/
def OutcomeCode.isError (o : OutcomeCode) : Bool :=
  match o.kind with
  | .timingError | .framingError | .logicError => true
  | .noEvent | .info | .reset => false

/-- The outcome of a bit the framer takes: BIT0 or BIT1 (R111). -/
def bitCode (b : Bool) : OutcomeCode := if b then .bit1 else .bit0

end Sys2Proof.Machine
end

