-- ==== Sys2Proof/Machine/Flags.lean ====
section
/-! DEFINITION. Sys2Proof/Machine/Flags.lean: the values computed from the state and not stored (spec 10_state.md R18,
44_packet_validator.md R87 to R92, 60_exceptions.md R115, 41_bit_assembler.md R61) and the status bytes made of flags
(45_host_reads.md R94, R98). -/

namespace Sys2Proof.Machine

/-- The bytes of the current or last packet, `buf[0..len-1]`, in order of arrival (R13, R26, R77). -/
def Block.packet (b : Block) : List Byte := b.buf.toList.take b.len.toNat

/-- `pxor`: the XOR of `buf[0..len-1]`, 0 when `len = 0` (R87). -/
def Block.pxor (b : Block) : Byte := b.packet.foldl (fun x y => x ^^^ y) 0

/-- `len_ok = (len >= VALID_LEN_MIN)` (R88). -/
def Block.lenOk (c : Config) (b : Block) : Bool := decide (c.validLenMin ≤ b.len.toNat)

/-- `csum_ok = (pxor = 0)` (R89). -/
def Block.csumOk (b : Block) : Bool := decide (b.pxor = 0)

/-- `valid = ready and len_ok and csum_ok` (R90). -/
def Block.valid (c : Config) (b : Block) : Bool := b.ready && b.lenOk c && b.csumOk

/-- The request line, a level: `irq = ready` (R115). -/
def Block.irq (b : Block) : Bool := b.ready

/-- `PreamblePhase()`: `fstate` is Idle or Preamble (R61). -/
def Block.preamblePhase (b : Block) : Bool := decide (b.fstate = .idle ∨ b.fstate = .preamble)

/-- STATUS: `{0b000, valid, csum_ok, len_ok, armed, ready}` (R94). -/
def Block.statusByte (c : Config) (b : Block) : Byte :=
  0#3 ++ BitVec.ofBool (b.valid c) ++ BitVec.ofBool b.csumOk ++ BitVec.ofBool (b.lenOk c)
    ++ BitVec.ofBool b.armed ++ BitVec.ofBool b.ready

/-- DIAG: `{0b000, hp_class, hp_valid, fstate[2:0]}` (R98). -/
def Block.diagByte (b : Block) : Byte :=
  0#3 ++ BitVec.ofBool b.hp_class ++ BitVec.ofBool b.hp_valid ++ b.fstate.code

end Sys2Proof.Machine
end

