-- ==== Sys2Proof/Machine/Ops.lean ====
section
/-! DEFINITION. Sys2Proof/Machine/Ops.lean: the operations the meanings share: the timing reset (spec 10_state.md R19), the
error entry, which is the block's only exception mechanism (60_exceptions.md R110), the emission of an outcome, the buffer
write, the host's access to a register (20_memory.md R30, 45_host_reads.md R93, 43_control_and_overflow.md R80, R81), and
the pieces of a step. The error entry has no return: the next event is handled from the state it leaves (R117). -/

namespace Sys2Proof.Machine

/-- `TimingReset(S)`: the timing state at its initial values and `fstate = S`; `len`, `buf`, `ready`, `armed` and `outcome`
are not written (R19). -/
def Block.timingReset (f : FState) (b : Block) : Block :=
  { b with hp_valid := false, hp_class := false, pcount := 0, bitcnt := 0, cur := 0, fstate := f }

/-- `emit O`: the event's outcome is `O`, latched in `outcome` (00_scope.md §4, R15). -/
def Block.emit (o : OutcomeCode) (b : Block) : Block := { b with outcome := o }

/-- `raise FrameError(cause)`: `TimingReset(Idle)`, then `outcome <- cause`; the event ends (R110). -/
def Block.frameError (cause : OutcomeCode) (b : Block) : Block := (b.timingReset .idle).emit cause

/-- `buf[len] <- v`, `len <- len + 1`: the one writer of the buffer (R13, R14, R70). Where `buf` has no such byte the
machine faults; R70 says that does not happen (log entry 8). -/
def Block.appendByte (v : Byte) (b : Block) : Except Fault Block :=
  if h : b.len.toNat < 6 then .ok { b with buf := b.buf.set b.len.toNat v h, len := b.len + 1 }
  else .error .bufferIndexOutOfRange

/-- START: re-arm (R82). `buf` is not written. -/
def Block.start (b : Block) : Block :=
  { b.timingReset .idle with len := 0, ready := false, armed := true, outcome := .none }

/-- CLEAR_READY: `ready <- 0` and nothing else (R83). -/
def Block.clearReady (b : Block) : Block := { b with ready := false }

/-- The effect of a byte written to CONTROL: START, CLEAR_READY or nothing (R81). -/
def Block.control (d : Byte) (b : Block) : Block :=
  match commandOf d with
  | .start => b.start
  | .clearReady => b.clearReady
  | .nothing => b

/-- `MemWrite(A, 1, D)`: a write to CONTROL (0x1) is a command; a write to any other address has no effect (R80, R81). -/
def Block.writeReg (a : RegAddr) (d : Byte) (b : Block) : Block := if a = 0x1#4 then b.control d else b

/-- `MemRead(A, 1)`: the byte of the register map (R30, R93 to R104). CONTROL and the reserved 0xF read 0x00. -/
def Block.readReg (c : Config) (a : RegAddr) (b : Block) : Byte :=
  match a with
  | 0x0#4 => b.statusByte c
  | 0x1#4 => 0x00
  | 0x2#4 => b.len.setWidth 8
  | 0x3#4 => b.pxor
  | 0x4#4 => b.diagByte
  | 0x5#4 => b.pcount
  | 0x6#4 => b.bitcnt.setWidth 8
  | 0x7#4 => b.cur
  | 0x8#4 => b.buf[0]
  | 0x9#4 => b.buf[1]
  | 0xA#4 => b.buf[2]
  | 0xB#4 => b.buf[3]
  | 0xC#4 => b.buf[4]
  | 0xD#4 => b.buf[5]
  | 0xE#4 => b.outcome.code.setWidth 8
  | _ => 0x00

/-- The machine with the block and the answer that an event leaves. The configuration and the events still to come are
not the event's to change. -/
def State.settle (s : State) (b : Block) (o : Output) : State := { s with block := b, out := o }

/-- The end of an EDGE or OVF: its block, and the outcome it emitted, which is the one it latched (R15, R111). -/
def State.finishEvent (s : State) (b : Block) : State := s.settle b (Output.event b.outcome)

/-- A host write is one event; it emits no outcome and returns no byte (R29, R111). -/
def hostWrite (a : RegAddr) (d : Byte) (s : State) : Host.Outcome State Fault Refusal :=
  .next (s.settle (s.block.writeReg a d) Output.silent)

/-- A host read is one event; it returns the register's byte and writes no state of the block (R29, R93). -/
def hostRead (a : RegAddr) (s : State) : Host.Outcome State Fault Refusal :=
  .next (s.settle s.block (Output.data (s.block.readReg s.cfg a)))

/-- Power-on reset: every state element takes its value of R126, the buffer takes the draw (R125). -/
def State.powerOnReset (draw : Vector Byte 6) (s : State) : State := s.settle (Block.powerOn draw) Output.silent

/-- No event is presented: the block keeps its whole state and answers nothing (R124, R134; log entry 2). -/
def State.wait (s : State) : State := s.settle s.block Output.silent

/-- The machine with the next input taken and `rest` still to come. -/
def State.withInputs (s : State) (rest : List Input) : State := { s with inputs := rest }

/-- The refusal of a word that spells no event (R42, R43). -/
def refusalOf (r : Reject) : Refusal :=
  match r with
  | .reservedKind => .reservedKind
  | .reservedBits => .reservedBits

end Sys2Proof.Machine
end

