-- ==== Sys2Proof/Machine/Control.lean ====
section
/-! DEFINITION. Sys2Proof/Machine/Control.lean: timer overflow and the host writes (spec 43_control_and_overflow.md R79 to
R86). Every host write is MemWrite at its own address: CONTROL is a command, the 15 others have no effect. -/

namespace Sys2Proof.Machine

/-- OVF: `TimingReset(Idle)` and OVF_RESET, whatever `armed` is (R79). -/
def Block.ovf (b : Block) : Block := (b.timingReset .idle).emit .ovfReset

/-- OVF: timer overflow (R79). -/
def execOvf (s : State) : Host.Outcome State Fault Refusal := .next (s.finishEvent s.block.ovf)

/-- WR STATUS: no effect (R80). -/
def execWrStatus (d : Byte) (s : State) : Host.Outcome State Fault Refusal := hostWrite 0x0 d s

/-- WR CONTROL: command (R81). -/
def execWrControl (d : Byte) (s : State) : Host.Outcome State Fault Refusal := hostWrite 0x1 d s

/-- WR LEN: no effect (R80). -/
def execWrLen (d : Byte) (s : State) : Host.Outcome State Fault Refusal := hostWrite 0x2 d s

/-- WR XOR: no effect (R80). -/
def execWrXor (d : Byte) (s : State) : Host.Outcome State Fault Refusal := hostWrite 0x3 d s

/-- WR DIAG: no effect (R80). -/
def execWrDiag (d : Byte) (s : State) : Host.Outcome State Fault Refusal := hostWrite 0x4 d s

/-- WR PCOUNT: no effect (R80). -/
def execWrPcount (d : Byte) (s : State) : Host.Outcome State Fault Refusal := hostWrite 0x5 d s

/-- WR BITCNT: no effect (R80). -/
def execWrBitcnt (d : Byte) (s : State) : Host.Outcome State Fault Refusal := hostWrite 0x6 d s

/-- WR CUR: no effect (R80). -/
def execWrCur (d : Byte) (s : State) : Host.Outcome State Fault Refusal := hostWrite 0x7 d s

/-- WR BUF0: no effect (R80). -/
def execWrBuf0 (d : Byte) (s : State) : Host.Outcome State Fault Refusal := hostWrite 0x8 d s

/-- WR BUF1: no effect (R80). -/
def execWrBuf1 (d : Byte) (s : State) : Host.Outcome State Fault Refusal := hostWrite 0x9 d s

/-- WR BUF2: no effect (R80). -/
def execWrBuf2 (d : Byte) (s : State) : Host.Outcome State Fault Refusal := hostWrite 0xA d s

/-- WR BUF3: no effect (R80). -/
def execWrBuf3 (d : Byte) (s : State) : Host.Outcome State Fault Refusal := hostWrite 0xB d s

/-- WR BUF4: no effect (R80). -/
def execWrBuf4 (d : Byte) (s : State) : Host.Outcome State Fault Refusal := hostWrite 0xC d s

/-- WR BUF5: no effect (R80). -/
def execWrBuf5 (d : Byte) (s : State) : Host.Outcome State Fault Refusal := hostWrite 0xD d s

/-- WR OUTCOME: no effect (R80). -/
def execWrOutcome (d : Byte) (s : State) : Host.Outcome State Fault Refusal := hostWrite 0xE d s

/-- WR reserved 0xF: no effect (R80). -/
def execWrRsvdF (d : Byte) (s : State) : Host.Outcome State Fault Refusal := hostWrite 0xF d s

end Sys2Proof.Machine
end

