-- ==== Sys2Proof/Machine/Framer.lean ====
section
/-! DEFINITION. Sys2Proof/Machine/Framer.lean: the packet frame detector (spec 42_packet_framer.md R62 to R76), one
definition per rule. It runs once per assembled bit, inside EDGE. -/

namespace Sys2Proof.Machine

/-- IdleZero: a zero-bit in Idle is taken and changes nothing (R63). -/
def Block.idleZero (b : Block) : Block := b.emit .bit0

/-- IdleOne: the first one-bit of a preamble, which counts (R64). -/
def Block.idleOne (b : Block) : Block := { b with fstate := .preamble, pcount := 1 }.emit .bit1

/-- PreambleOne: `pcount <- min(pcount + 1, PCOUNT_MAX)` (R65, R10). -/
def Block.preambleOne (c : Config) (b : Block) : Block :=
  { b with pcount := BitVec.ofNat 8 (min (b.pcount.toNat + 1) c.pcountMax) }.emit .bit1

/-- FrameBegin: the zero-bit that ends the preamble is the first byte's start bit; the old length is discarded and the old
bytes stay (R67). -/
def Block.frameBegin (b : Block) : Block :=
  { b with fstate := .dataBit, pcount := 0, len := 0, cur := 0, bitcnt := 0 }.emit .bit0

/-- A zero-bit in Preamble: ERR_PREAMBLE if too few one-bits were counted, else FrameBegin (R62, R66, R67). -/
def Block.preambleZero (c : Config) (b : Block) : Block :=
  if b.pcount.toNat < c.preambleMin then b.frameError .errPreamble else b.frameBegin

/-- The accumulator with the bit shifted in at bit 0: `{cur[6:0], b}` (R12, R68). -/
def shiftIn (cur : Byte) (bit : Bool) : Byte := cur.extractLsb' 0 7 ++ BitVec.ofBool bit

/-- DataNext: a data bit that does not complete the byte; `n` bits are in (R69). -/
def Block.dataNext (v : Byte) (n : Nat) (bit : Bool) (b : Block) : Block :=
  { b with cur := v, bitcnt := BitVec.ofNat 3 n }.emit (bitCode bit)

/-- ByteDone: the eighth data bit completes a byte; the framer goes to EndBit when the new length is `MAX_LEN`, else to
StartBit (R70). -/
def Block.byteDone (c : Config) (v : Byte) (bit : Bool) (b : Block) : Except Fault Block :=
  match b.appendByte v with
  | .ok b' => .ok ({ b' with
      cur := 0, bitcnt := 0,
      fstate := if b.len.toNat + 1 = c.maxLen then .endBit else .startBit }.emit (bitCode bit))
  | .error f => .error f

/-- DataShift: every bit in DataBit is a data bit (R68). -/
def Block.dataShift (c : Config) (bit : Bool) (b : Block) : Except Fault Block :=
  if b.bitcnt.toNat + 1 < c.byteBits then .ok (b.dataNext (shiftIn b.cur bit) (b.bitcnt.toNat + 1) bit)
  else b.byteDone c (shiftIn b.cur bit) bit

/-- StartZero: a zero-bit in StartBit begins the next data byte (R71). -/
def Block.startZero (b : Block) : Block := { b with fstate := .dataBit }.emit .bit0

/-- Complete: the end bit publishes the packet and disables capture; `len` and `buf` are kept (R76). -/
def Block.complete (b : Block) : Block := { b.timingReset .done with ready := true, armed := false }.emit .packet

/-- FramerStep(b): one assembled bit (R62). Exactly one arm runs. -/
def Block.framerStep (c : Config) (bit : Bool) (b : Block) : Except Fault Block :=
  match b.fstate with
  | .idle => .ok (if bit then b.idleOne else b.idleZero)
  | .preamble => .ok (if bit then b.preambleOne c else b.preambleZero c)
  | .dataBit => b.dataShift c bit
  | .startBit => .ok (if bit then b.complete else b.startZero)
  | .endBit => .ok (if bit then b.complete else b.frameError .errTooLong)
  | .done => .ok (b.frameError .errDone)

end Sys2Proof.Machine
end

