-- ==== Sys2Proof/Machine/Edge.lean ====
section
/-! DEFINITION. Sys2Proof/Machine/Edge.lean: the phase-ambiguity bit assembler (spec 41_bit_assembler.md R56 to R61) and the
EDGE event (40_edge_classifier.md R52 to R54). A class that is ONE or ZERO is written as the bit 1 or 0 (R56). -/

namespace Sys2Proof.Machine

/-- FirstHalf(c): latch a first half (R57). -/
def Block.firstHalf (cls : Bool) (b : Block) : Block := { b with hp_valid := true, hp_class := cls }.emit .half

/-- CompleteBit(c): two halves of one class make a bit, which the framer takes (R58). -/
def Block.completeBit (c : Config) (cls : Bool) (b : Block) : Except Fault Block :=
  { b with hp_valid := false, hp_class := false }.framerStep c cls

/-- Resync(c): in the preamble phase the mismatched half becomes the new first half (R59). -/
def Block.resync (cls : Bool) (b : Block) : Block := { b with hp_class := cls }.emit .resync

/-- Assemble(c): the four arms in the order of R56; a mismatch outside the preamble phase is ERR_PHASE (R60). -/
def Block.assemble (c : Config) (cls : Bool) (b : Block) : Except Fault Block :=
  if b.hp_valid = false then .ok (b.firstHalf cls)
  else if b.hp_class = cls then b.completeBit c cls
  else if b.preamblePhase then .ok (b.resync cls)
  else .ok (b.frameError .errPhase)

/-- EDGE(W) on the block: the capture gate, the classifier, the assembler, in this order (R52, R113). -/
def Block.edge (c : Config) (w : Width) (b : Block) : Except Fault Block :=
  if b.armed = false then .ok (b.emit .ignored)
  else
    match classify c w with
    | .invalid => .ok (b.frameError .errWidth)
    | .one => b.assemble c true
    | .zero => b.assemble c false

/-- EDGE: one edge measurement (R52). -/
def execEdge (w : Width) (s : State) : Host.Outcome State Fault Refusal :=
  match s.block.edge s.cfg w with
  | .ok b => .next (s.finishEvent b)
  | .error f => .fault f

end Sys2Proof.Machine
end

