-- ==== Sys2Proof/Machine/HostReads.lean ====
section
/-! DEFINITION. Sys2Proof/Machine/HostReads.lean: the host register reads (spec 45_host_reads.md R93 to R104). Every read is
MemRead at its own address and writes no state of the block. -/

namespace Sys2Proof.Machine

/-- RD STATUS returns `{000, valid, csum_ok, len_ok, armed, ready}` (R94). -/
def execRdStatus (s : State) : Host.Outcome State Fault Refusal := hostRead 0x0 s

/-- RD CONTROL returns 0x00 (R95). -/
def execRdControl (s : State) : Host.Outcome State Fault Refusal := hostRead 0x1 s

/-- RD LEN returns `len`, zero-extended (R96). -/
def execRdLen (s : State) : Host.Outcome State Fault Refusal := hostRead 0x2 s

/-- RD XOR returns `pxor` (R97). -/
def execRdXor (s : State) : Host.Outcome State Fault Refusal := hostRead 0x3 s

/-- RD DIAG returns `{000, hp_class, hp_valid, fstate}` (R98). -/
def execRdDiag (s : State) : Host.Outcome State Fault Refusal := hostRead 0x4 s

/-- RD PCOUNT returns `pcount` (R99). -/
def execRdPcount (s : State) : Host.Outcome State Fault Refusal := hostRead 0x5 s

/-- RD BITCNT returns `bitcnt`, zero-extended (R100). -/
def execRdBitcnt (s : State) : Host.Outcome State Fault Refusal := hostRead 0x6 s

/-- RD CUR returns `cur` (R101). -/
def execRdCur (s : State) : Host.Outcome State Fault Refusal := hostRead 0x7 s

/-- RD BUF0 returns `buf[0]` (R102). -/
def execRdBuf0 (s : State) : Host.Outcome State Fault Refusal := hostRead 0x8 s

/-- RD BUF1 returns `buf[1]` (R102). -/
def execRdBuf1 (s : State) : Host.Outcome State Fault Refusal := hostRead 0x9 s

/-- RD BUF2 returns `buf[2]` (R102). -/
def execRdBuf2 (s : State) : Host.Outcome State Fault Refusal := hostRead 0xA s

/-- RD BUF3 returns `buf[3]` (R102). -/
def execRdBuf3 (s : State) : Host.Outcome State Fault Refusal := hostRead 0xB s

/-- RD BUF4 returns `buf[4]` (R102). -/
def execRdBuf4 (s : State) : Host.Outcome State Fault Refusal := hostRead 0xC s

/-- RD BUF5 returns `buf[5]` (R102). -/
def execRdBuf5 (s : State) : Host.Outcome State Fault Refusal := hostRead 0xD s

/-- RD OUTCOME returns the outcome code, zero-extended (R103). -/
def execRdOutcome (s : State) : Host.Outcome State Fault Refusal := hostRead 0xE s

/-- RD reserved 0xF returns 0x00 (R104). -/
def execRdRsvdF (s : State) : Host.Outcome State Fault Refusal := hostRead 0xF s

end Sys2Proof.Machine
end

