-- ==== Sys2Proof/Machine/Dispatch.lean ====
section
/-! DEFINITION. Sys2Proof/Machine/Dispatch.lean: one arm per event (spec 30_encoding.md R45). -/

namespace Sys2Proof.Machine

/-- What an event does: (state, event) to (next state, outcome, read data) (00_scope.md R2). -/
def exec (i : Instr) (s : State) : Host.Outcome State Fault Refusal :=
  match i with
  | .edge w => Sys2Proof.Machine.execEdge w s
  | .ovf => Sys2Proof.Machine.execOvf s
  | .wrStatus d => Sys2Proof.Machine.execWrStatus d s
  | .wrControl d => Sys2Proof.Machine.execWrControl d s
  | .wrLen d => Sys2Proof.Machine.execWrLen d s
  | .wrXor d => Sys2Proof.Machine.execWrXor d s
  | .wrDiag d => Sys2Proof.Machine.execWrDiag d s
  | .wrPcount d => Sys2Proof.Machine.execWrPcount d s
  | .wrBitcnt d => Sys2Proof.Machine.execWrBitcnt d s
  | .wrCur d => Sys2Proof.Machine.execWrCur d s
  | .wrBuf0 d => Sys2Proof.Machine.execWrBuf0 d s
  | .wrBuf1 d => Sys2Proof.Machine.execWrBuf1 d s
  | .wrBuf2 d => Sys2Proof.Machine.execWrBuf2 d s
  | .wrBuf3 d => Sys2Proof.Machine.execWrBuf3 d s
  | .wrBuf4 d => Sys2Proof.Machine.execWrBuf4 d s
  | .wrBuf5 d => Sys2Proof.Machine.execWrBuf5 d s
  | .wrOutcome d => Sys2Proof.Machine.execWrOutcome d s
  | .wrRsvdF d => Sys2Proof.Machine.execWrRsvdF d s
  | .rdStatus => Sys2Proof.Machine.execRdStatus s
  | .rdControl => Sys2Proof.Machine.execRdControl s
  | .rdLen => Sys2Proof.Machine.execRdLen s
  | .rdXor => Sys2Proof.Machine.execRdXor s
  | .rdDiag => Sys2Proof.Machine.execRdDiag s
  | .rdPcount => Sys2Proof.Machine.execRdPcount s
  | .rdBitcnt => Sys2Proof.Machine.execRdBitcnt s
  | .rdCur => Sys2Proof.Machine.execRdCur s
  | .rdBuf0 => Sys2Proof.Machine.execRdBuf0 s
  | .rdBuf1 => Sys2Proof.Machine.execRdBuf1 s
  | .rdBuf2 => Sys2Proof.Machine.execRdBuf2 s
  | .rdBuf3 => Sys2Proof.Machine.execRdBuf3 s
  | .rdBuf4 => Sys2Proof.Machine.execRdBuf4 s
  | .rdBuf5 => Sys2Proof.Machine.execRdBuf5 s
  | .rdOutcome => Sys2Proof.Machine.execRdOutcome s
  | .rdRsvdF => Sys2Proof.Machine.execRdRsvdF s

end Sys2Proof.Machine
end

