-- ==== Sys2Proof/Machine/Step.lean ====
section
/-! DEFINITION. Sys2Proof/Machine/Step.lean: one step of the machine: the next input of the environment's total order is
taken and processed completely (spec 00_scope.md R2, 20_memory.md R31). -/

namespace Sys2Proof.Machine

/-- An event word: it decodes to one event, which runs, or it is refused (30_encoding.md R42, R43, R50). -/
def stepEvent (w : EventWord) (s : State) : Host.Outcome State Fault Refusal :=
  match decode w with
  | .ok i => exec i s
  | .error r => .refused (refusalOf r)

/-- One step. A configuration that is not well formed is refused (R4). With no input presented the block waits (log entry
2). Power-on reset acts between events (R125). -/
def step (s : State) : Host.Outcome State Fault Refusal :=
  if s.cfg.WellFormed then
    match s.inputs with
    | [] => .next s.wait
    | .powerOn draw :: rest => .next ((s.withInputs rest).powerOnReset draw)
    | .event w :: rest => stepEvent w (s.withInputs rest)
  else .refused .badConfig

/-- `s` with the event whose table word is `w` presented next, before the events already to come (log entry 10). -/
def State.withFetchWord (s : State) (nbits w : Nat) : State :=
  s.withInputs (.event (BitVec.ofNat 32 (w % 2 ^ nbits)) :: s.inputs)

end Sys2Proof.Machine
end

