-- ==== Sys2Proof/Machine/TraceAssembler.lean ====
section
/-! DEFINITION. Sys2Proof/Machine/TraceAssembler.lean: the trace assembler (spec 30_encoding.md R48, R49): base statements,
pseudo-instructions and the text form. It only writes event words; the machine does not read this file. -/

namespace Sys2Proof.Machine

/-- The base statements of R48, with operands as written: an operand out of range is an assembly error. -/
inductive Base where
  /-- `edge W` -/
  | edge (w : Nat)
  /-- `ovf` -/
  | ovf
  /-- `wr R, D` -/
  | wr (a d : Nat)
  /-- `rd R` -/
  | rd (a : Nat)
deriving DecidableEq, Repr

/-- A statement: a base statement or a pseudo-instruction of R49. -/
inductive Stmt where
  | base (b : Base)
  | start
  | clrrdy
  | half1
  | half0
  | bit1
  | bit0
  | preamble (n : Nat)
  | byte (v : Nat)
  | frame (bytes : List Nat)
deriving DecidableEq, Repr

/-- The word a base statement writes, by the formulas of R48's table; none where an operand is out of range. -/
def Base.word (b : Base) : Option EventWord :=
  match b with
  | .edge w => if w ≤ 0xFFFF then some (BitVec.ofNat 32 (0x10000000 + w)) else none
  | .ovf => some 0x20000000
  | .wr a d => if a ≤ 0xF ∧ d ≤ 0xFF then some (BitVec.ofNat 32 (0x30000000 + a * 2 ^ 8 + d)) else none
  | .rd a => if a ≤ 0xF then some (BitVec.ofNat 32 (0x40000000 + a * 2 ^ 8)) else none

/-- `bit1` is `half1` twice, `bit0` is `half0` twice; the halves have the nominal widths 116 and 200 (R49, R5). -/
def bitStmts (b : Bool) : List Base := [.edge (if b then 116 else 200), .edge (if b then 116 else 200)]

/-- `byte v`: for i = 7 down to 0, `bit1` if `v[i] = 1`, else `bit0` (R49). -/
def byteStmts (v : Nat) : Option (List Base) :=
  if v ≤ 0xFF then some ((byteBits (BitVec.ofNat 8 v)).flatMap bitStmts) else none

/-- `frame b1, ..., bn`: for each byte `bit0` then `byte`; at the end `bit1` (R49). R49 does not say whether n may be 0; DESIGN
CHOICE (log entry 14): as a term, a frame of no byte is the expansion at n = 0, `bit1` alone. -/
def frameStmts (bytes : List Nat) : Option (List Base) :=
  match bytes with
  | [] => some (bitStmts true)
  | v :: rest =>
    match byteStmts v, frameStmts rest with
    | some x, some y => some (bitStmts false ++ (x ++ y))
    | _, _ => none

/-- The expansion of a statement into base statements, in order (R49). -/
def Stmt.expand (s : Stmt) : Option (List Base) :=
  match s with
  | .base b => some [b]
  | .start => some [.wr 0x1 0x01]
  | .clrrdy => some [.wr 0x1 0x02]
  | .half1 => some [.edge 116]
  | .half0 => some [.edge 200]
  | .bit1 => some (bitStmts true)
  | .bit0 => some (bitStmts false)
  | .preamble n => some ((List.replicate n true).flatMap bitStmts)
  | .byte v => byteStmts v
  | .frame bytes => frameStmts bytes

/-- The words of a list of base statements; an error in one writes no word (R48). -/
def baseWords (bs : List Base) : Option (List EventWord) :=
  match bs with
  | [] => some []
  | b :: rest =>
    match b.word, baseWords rest with
    | some w, some ws => some (w :: ws)
    | _, _ => none

/-- The words of one statement (R48, R49). -/
def Stmt.words (s : Stmt) : Option (List EventWord) :=
  match s.expand with
  | some bs => baseWords bs
  | none => none

/-- The words of a list of statements, in order. -/
def assemble (ss : List Stmt) : Option (List EventWord) :=
  match ss with
  | [] => some []
  | s :: rest =>
    match s.words, assemble rest with
    | some x, some y => some (x ++ y)
    | _, _ => none

/-! The text form of R48: one statement a line, `#` begins a comment, numbers are decimal or hexadecimal with `0x`. What R48
leaves open of it is log entry 14. -/

/-- A space inside a line. -/
def isBlank (c : Char) : Bool := c = ' ' || c = '\t' || c = '\r'

/-- The characters without blanks at either end. -/
def trim (cs : List Char) : List Char := ((cs.dropWhile isBlank).reverse.dropWhile isBlank).reverse

/-- The pieces of `cs` between the characters `sep`. -/
def splitChars (sep : Char) (cs : List Char) : List (List Char) :=
  match cs with
  | [] => [[]]
  | c :: rest =>
    if c = sep then [] :: splitChars sep rest
    else
      match splitChars sep rest with
      | [] => [[c]]
      | p :: ps => (c :: p) :: ps

/-- The value of a digit below `radix`. -/
def digitValue (radix : Nat) (c : Char) : Option Nat :=
  let n := c.toNat
  let v := if 48 ≤ n ∧ n ≤ 57 then n - 48
    else if 65 ≤ n ∧ n ≤ 70 then n - 55
    else if 97 ≤ n ∧ n ≤ 102 then n - 87
    else radix
  if v < radix then some v else none

/-- The number that the digits spell, continuing from `acc`. -/
def digitsValue (radix acc : Nat) (cs : List Char) : Option Nat :=
  match cs with
  | [] => some acc
  | c :: rest =>
    match digitValue radix c with
    | some v => digitsValue radix (acc * radix + v) rest
    | none => none

/-- A number: decimal, or hexadecimal with `0x` (R48). -/
def parseNumber (cs : List Char) : Option Nat :=
  match cs with
  | [] => none
  | '0' :: 'x' :: c :: rest => digitsValue 16 0 (c :: rest)
  | c :: rest => digitsValue 10 0 (c :: rest)

/-- The register names of R30 in the order of their addresses; 0xF has none (R48). -/
def registerNames : List String :=
  ["STATUS", "CONTROL", "LEN", "XOR", "DIAG", "PCOUNT", "BITCNT", "CUR", "BUF0", "BUF1", "BUF2", "BUF3", "BUF4", "BUF5",
    "OUTCOME"]

/-- The address of a register name, its place in the list `names` counted from `a`. -/
def nameAddress (cs : List Char) (a : Nat) (names : List String) : Option Nat :=
  match names with
  | [] => none
  | n :: rest => if cs = n.toList then some a else nameAddress cs (a + 1) rest

/-- A register operand: a name, or a number (R48). -/
def parseRegister (cs : List Char) : Option Nat :=
  match nameAddress cs 0 registerNames with
  | some a => some a
  | none => parseNumber cs

/-- A list of numbers. -/
def parseNumbers (ops : List (List Char)) : Option (List Nat) :=
  match ops with
  | [] => some []
  | o :: rest =>
    match parseNumber o, parseNumbers rest with
    | some v, some vs => some (v :: vs)
    | _, _ => none

/-- A statement with no operand. R49 does not say whether `frame` with no byte is a statement; DESIGN CHOICE (log entry 14): in
the text form it is none, so the line is an error. -/
def parseBare (name : List Char) : Option Stmt :=
  if name = "ovf".toList then some (.base .ovf)
  else if name = "start".toList then some .start
  else if name = "clrrdy".toList then some .clrrdy
  else if name = "half1".toList then some .half1
  else if name = "half0".toList then some .half0
  else if name = "bit1".toList then some .bit1
  else if name = "bit0".toList then some .bit0
  else none

/-- A statement with operands: its name and the operands' text. -/
def parseWithOperands (name : List Char) (ops : List (List Char)) : Option Stmt :=
  match ops with
  | [] => none
  | o :: rest =>
    if name = "frame".toList then (parseNumbers (o :: rest)).map .frame
    else
      match rest with
      | [] =>
        if name = "edge".toList then (parseNumber o).map fun w => .base (.edge w)
        else if name = "rd".toList then (parseRegister o).map fun a => .base (.rd a)
        else if name = "preamble".toList then (parseNumber o).map .preamble
        else if name = "byte".toList then (parseNumber o).map .byte
        else none
      | [d] =>
        if name = "wr".toList then
          match parseRegister o, parseNumber d with
          | some a, some v => some (.base (.wr a v))
          | _, _ => none
        else none
      | _ => none

/-- One line: `some []` for an empty or comment line, its statement otherwise, none for a line that spells no statement
(`frame` with no byte among them, log entry 14). -/
def parseLine (line : List Char) : Option (List Stmt) :=
  let text := trim (line.takeWhile fun c => c ≠ '#')
  let name := text.takeWhile fun c => !isBlank c
  let operands := trim (text.dropWhile fun c => !isBlank c)
  if text = [] then some []
  else if operands = [] then (parseBare name).map fun s => [s]
  else (parseWithOperands name ((splitChars ',' operands).map trim)).map fun s => [s]

/-- The statements of the lines of a text. -/
def parseLines (lines : List (List Char)) : Option (List Stmt) :=
  match lines with
  | [] => some []
  | l :: rest =>
    match parseLine l, parseLines rest with
    | some x, some y => some (x ++ y)
    | _, _ => none

/-- The words of an assembler text; none if any line is an assembly error (R48). -/
def assembleText (text : String) : Option (List EventWord) :=
  match parseLines (splitChars '\n' text.toList) with
  | some ss => assemble ss
  | none => none

end Sys2Proof.Machine
end

