-- ==== Sys2Proof/Machine/Wire.lean ====
section
/-! DEFINITION. Sys2Proof/Machine/Wire.lean: the on-wire encoding the block decodes (spec 30_encoding.md R46, R47) and the
front end's contract (40_edge_classifier.md R51). The machine does not read this file: it says what an environment that
keeps the contract presents. -/

namespace Sys2Proof.Machine

/-- The two half-bits of each bit: a one-bit is two ONE halves, a zero-bit two ZERO halves (R46). -/
def halfClasses (bits : List Bool) : List WidthClass := bits.flatMap fun b => [halfClass b, halfClass b]

/-- The bits of one data byte on the wire: its start bit, then the byte, bit 7 first (R47). -/
def wireByte (v : Byte) : List Bool := false :: byteBits v

/-- The bits of a packet on the wire after its preamble: each byte with its start bit, then the end bit (R47). -/
def wireFrame (bytes : List Byte) : List Bool := bytes.flatMap wireByte ++ [true]

/-- `z` zero-bits of noise, a preamble of `p` one-bits, and the frame of `bytes`: `0^z 1^p 0 B1 0 B2 ... 0 Bn 1` (R47, R78). -/
def wireBits (z p : Nat) (bytes : List Byte) : List Bool :=
  List.replicate z false ++ (List.replicate p true ++ wireFrame bytes)

/-- The EDGE event of a width, as an input. -/
def edgeInput (w : Width) : Input := .event (encodeE w)

/-- The OVF event, as an input. -/
def ovfInput : Input := .event encodeO

/-- What the front end delivers when `gap` ticks lie between two transitions: one OVF for each 2^TW ticks with no
transition, then the EDGE with the width modulo 2^TW (R51; log entry 15). -/
def frontEndEvents (gap : Nat) : List Input :=
  List.replicate (gap / 2 ^ 16) ovfInput ++ [edgeInput (BitVec.ofNat 16 (gap % 2 ^ 16))]

end Sys2Proof.Machine
end

