-- ==== Sys2Proof/Safety.lean ====
section
/-! DEFINITION. Sys2Proof/Safety.lean: what counts as a safe state and a safe run of the block, in the terms the statements
use: the invariants of spec 10_state.md R23, the reachable states, the published packets of 42_packet_framer.md R77, and
the agreement of two machines on everything but bytes no frame has written (93_implementation_defined.md rows 1 and 2). -/

namespace Sys2Proof

/-- The event is START: a CONTROL write with bit 0 set (R81, R82). -/
def Instr.isStart (i : Instr) : Bool :=
  match i with
  | .wrControl d => d[0]
  | _ => false

/-- The agents that present events (R114, R119, R122). -/
inductive Agent where
  | frontEnd | timer | host
deriving DecidableEq, Repr

/-- Who presents the event: EDGE comes from the front end, OVF from the timer, RD and WR from the host (R114, R119). -/
def Instr.agent (i : Instr) : Agent :=
  match i with
  | .edge _ => .frontEnd
  | .ovf => .timer
  | _ => .host

namespace Machine

/-- The invariants of R23 on the block (8 without its clause on who wrote the bytes, which speaks of a run; log entry 13), and
two that R10 and R70 give and the others need (log entry 13). -/
structure Block.Inv (c : Config) (b : Block) : Prop where
  /-- R23.1 -/
  len_le : b.len.toNat ≤ c.maxLen
  /-- R23.2 -/
  latch_clear : b.hp_valid = false → b.hp_class = false
  /-- R23.3 -/
  pcount_preamble : b.pcount ≠ 0 → b.fstate = .preamble
  /-- R23.4 -/
  byte_dataBit : b.bitcnt ≠ 0 ∨ b.cur ≠ 0 → b.fstate = .dataBit
  /-- R23.5 -/
  done_disarmed : b.fstate = .done → b.armed = false
  /-- R23.6 -/
  ready_disarmed : b.ready = true → b.armed = false
  /-- R23.7 -/
  latch_armed : b.hp_valid = true → b.armed = true ∧ b.fstate ≠ .done
  /-- R23.8, first half -/
  ready_len : b.ready = true → 1 ≤ b.len.toNat
  /-- R23.9, first sentence -/
  framed_len : b.fstate = .startBit ∨ b.fstate = .endBit → 1 ≤ b.len.toNat
  /-- R23.9, second sentence -/
  endBit_iff : b.fstate = .endBit ↔ (b.fstate = .startBit ∨ b.fstate = .endBit) ∧ b.len.toNat = c.maxLen
  /-- R70: "`len < MAX_LEN` holds on entry" of ByteDone -/
  dataBit_room : b.fstate = .dataBit → b.len.toNat < c.maxLen
  /-- R7, R10: `pcount` is 0 to `PCOUNT_MAX` -/
  pcount_le : b.pcount.toNat ≤ c.pcountMax

/-- A safe state: its configuration is well formed and its block keeps the invariants. -/
structure State.Inv (s : State) : Prop where
  cfg_wf : s.cfg.WellFormed
  block_inv : s.block.Inv s.cfg

/-- The states that runs reach from power-on reset, at any well-formed configuration and under any inputs (R23, R125). -/
inductive Reachable : State → Prop where
  | powerOn (c : Config) (inputs : List Input) (h : c.WellFormed) : Reachable (State.powerOn c inputs)
  | step (s t : State) (hs : Reachable s) (h : step s = .next t) : Reachable t

/-- The packet that the last step published, if its event emitted PACKET (R77). -/
def State.published (s : State) : Option (List Byte) :=
  if s.out.emitted = some .packet then some s.block.packet else none

/-- The packets published in the next `k` steps, oldest first (R77). -/
def observe (k : Nat) (s : State) : List (List Byte) :=
  match k with
  | 0 => []
  | n + 1 =>
    match step s with
    | .next t => (match t.published with | some p => [p] | none => []) ++ observe n t
    | .fault _ => []
    | .refused _ => []

/-- `k` steps of the machine. -/
def run (k : Nat) (s : State) : Host.Outcome State Fault Refusal :=
  match k with
  | 0 => .next s
  | n + 1 =>
    match step s with
    | .next t => run n t
    | .fault f => .fault f
    | .refused r => .refused r

/-- Two blocks agree on every element but the buffer bytes at index `len` and above, which no rule of the frame has written
(R14, R23.8; 93_implementation_defined.md rows 1 and 2). -/
structure Block.AgreeBelowLen (a b : Block) : Prop where
  rest : { a with buf := b.buf } = b
  bytes : a.packet = b.packet

/-- The bit `b` was assembled and the framer took it without an error, a reset or a packet (the "since the last timing
reset" of R78). -/
def Block.tookBit (c : Config) (bit : Bool) (b b' : Block) : Prop :=
  b.framerStep c bit = .ok b' ∧ b'.outcome = bitCode bit

/-- The framer takes the bits in order, each without an error, a reset or a packet, and goes from `b` to `b'`. -/
def Block.tookBits (c : Config) (bits : List Bool) (b b' : Block) : Prop :=
  match bits with
  | [] => b = b'
  | bit :: rest => ∃ m, b.tookBit c bit m ∧ m.tookBits c rest b'

/-- The framer looks for a fresh preamble and no half is latched: the state a timing reset to Idle leaves, with capture
enabled (R19, R61, R117). -/
def Block.freshIdle (b : Block) : Prop :=
  b.armed = true ∧ b.fstate = .idle ∧ b.hp_valid = false ∧ b.hp_class = false ∧ b.pcount = 0 ∧ b.bitcnt = 0 ∧ b.cur = 0

/-- The reads of the consumer protocol, step 2: LEN, then BUF0 to BUF(len-1), then STATUS (R128). -/
def consumerReads (len : Nat) : List Instr :=
  [.rdLen] ++ ((List.range len).map fun i => rdInstr (BitVec.ofNat 4 (8 + i))) ++ [.rdStatus]

/-- The bytes that a list of host events returns, run one after the other from `s`; none if one does not complete. -/
def readBytes (is : List Instr) (s : State) : Option (List Byte) :=
  match is with
  | [] => some []
  | i :: rest =>
    match exec i s with
    | .next t =>
      match t.out.rdata, readBytes rest t with
      | some d, some ds => some (d :: ds)
      | _, _ => none
    | .fault _ => none
    | .refused _ => none

end Machine

end Sys2Proof
end

