-- ==== Sys2Proof/Certificates/Slice0/Obligations.lean ====
section
/-! DEFINITION. Sys2Proof/Certificates/Slice0/Obligations.lean: the statements about the model, each after a numbered rule of
the spec. Results are written out field by field and do not name the operation the meaning uses. -/

open Sys2Proof Sys2Proof.Machine

/-! Reset, configuration and the step. -/

/-- R126, the state after power-on reset and what its registers read, at every configuration; the buffer holds `BUF_INIT`. -/
def Obligations.PowerOnResetState : Prop :=
  ∀ (c : Config) (inputs : List Input), c.WellFormed →
    (State.powerOn c inputs).block =
        { fstate := .idle, hp_valid := false, hp_class := false, pcount := 0, bitcnt := 0, cur := 0, len := 0,
          buf := c.bufInit, ready := false, armed := false, outcome := .none } ∧
      (State.powerOn c inputs).block.readReg c 0x0 = 0x08 ∧
      (State.powerOn c inputs).block.readReg c 0x4 = 0x00 ∧
      (State.powerOn c inputs).block.readReg c 0x2 = 0x00 ∧
      (State.powerOn c inputs).block.readReg c 0x3 = 0x00 ∧
      (State.powerOn c inputs).block.readReg c 0xE = 0x00 ∧
      State.reset = State.powerOn Config.default []

/-- R125 and R126: power-on reset, an input outside the event stream, puts every state element in its value of R126, the
buffer taking unspecified bytes. The rest is the model's choice: that it acts between any two events and the later inputs
stay (log entry 7), that each reset carries its own draw of the buffer (log entry 5), that it answers nothing (log entry
3). -/
def Obligations.PowerOnResetBetweenEvents : Prop :=
  ∀ (s : State) (draw : Vector Byte 6) (rest : List Input), s.cfg.WellFormed → s.inputs = .powerOn draw :: rest →
    step s = .next
      { s with
        block :=
          { fstate := .idle, hp_valid := false, hp_class := false, pcount := 0, bitcnt := 0, cur := 0, len := 0,
            buf := draw, ready := false, armed := false, outcome := .none }
        out := ⟨none, none⟩
        inputs := rest }

/-- R5 with R3 and R120: the default thresholds are the µs ranges in ticks, and the defaults are a well-formed
configuration. -/
def Obligations.DefaultThresholdsFromMicroseconds : Prop :=
  Config.default.WellFormed ∧
    Config.default.min1 = Config.default.ticksOfMicros 52 ∧ Config.default.max1 = Config.default.ticksOfMicros 64 ∧
    Config.default.min0 = Config.default.ticksOfMicros 90 ∧ Config.default.max0 = Config.default.ticksOfMicros 10000 ∧
    Config.default.min1 = 104 ∧ Config.default.max1 = 128 ∧ Config.default.min0 = 180 ∧ Config.default.max0 = 20000 ∧
    Config.default.ticksOfMicros 58 = 116 ∧ Config.default.ticksOfMicros 100 = 200 ∧
    Config.default.overflowNs = 32768000

/-- R4: the constraint keeps the two ranges disjoint and both non-empty, and a configuration that breaks it is refused. -/
def Obligations.ThresholdConstraintHoldsOrRefused : Prop :=
  (∀ c : Config, c.ThresholdsOk →
    (∀ w : Nat, ¬((c.min1 ≤ w ∧ w < c.max1) ∧ (c.min0 ≤ w ∧ w ≤ c.max0))) ∧
      (∃ w : Nat, w < 2 ^ c.tw ∧ c.min1 ≤ w ∧ w < c.max1) ∧
      (∃ w : Nat, w < 2 ^ c.tw ∧ c.min0 ≤ w ∧ w ≤ c.max0)) ∧
  (∀ s : State, ¬(0 < s.cfg.min1 ∧ s.cfg.min1 < s.cfg.max1 ∧ s.cfg.max1 ≤ s.cfg.min0 ∧ s.cfg.min0 ≤ s.cfg.max0 ∧
      s.cfg.max0 ≤ 2 ^ s.cfg.tw - 1) → step s = .refused .badConfig)

/-- R2, R31: a step takes the next input and runs the event it decodes to, on the state that its predecessors left; nothing
else is around it. With no input presented the block keeps its state (log entry 2: the model's choice). -/
def Obligations.StepRunsTheDecodedEvent : Prop :=
  (∀ (s : State) (w : EventWord) (rest : List Input) (i : Instr), s.cfg.WellFormed → s.inputs = .event w :: rest →
    decode w = .ok i → step s = exec i { s with inputs := rest }) ∧
  (∀ s : State, s.cfg.WellFormed → s.inputs = [] → step s = .next { s with out := ⟨none, none⟩ })

/-- R42, R43: a word of a reserved kind, or with a nonzero reserved field, spells no event: the decoder refuses it by name
and the machine takes no step on it; every other word decodes. -/
def Obligations.WordsThatSpellNoEventAreRefused : Prop :=
  (∀ w : EventWord, EventWord.kind w = 0x0#4 ∨ 0x5#4 ≤ EventWord.kind w → decode w = .error .reservedKind) ∧
  (∀ w : EventWord, EventWord.kind w = 0x1#4 → w.extractLsb' 16 12 ≠ 0#12 → decode w = .error .reservedBits) ∧
  (∀ w : EventWord, EventWord.kind w = 0x2#4 → w.extractLsb' 0 28 ≠ 0#28 → decode w = .error .reservedBits) ∧
  (∀ w : EventWord, EventWord.kind w = 0x3#4 → w.extractLsb' 12 16 ≠ 0#16 → decode w = .error .reservedBits) ∧
  (∀ w : EventWord, EventWord.kind w = 0x4#4 → w.extractLsb' 12 16 ≠ 0#16 ∨ w.extractLsb' 0 8 ≠ 0#8 →
    decode w = .error .reservedBits) ∧
  (∀ w : EventWord, (∃ i, decode w = .ok i) ↔ w.WellFormed) ∧
  (∀ (s : State) (w : EventWord) (rest : List Input), s.cfg.WellFormed → s.inputs = .event w :: rest →
    (decode w = .error .reservedKind → step s = .refused .reservedKind) ∧
    (decode w = .error .reservedBits → step s = .refused .reservedBits))

/-! Encoding. -/

/-- Every event, with every operand, decodes from the word the encoder writes for it, and each word has one meaning: the event
it decodes to encodes to that word and no other. -/
def Obligations.DecodeAndEncodeAgree : Prop :=
  (∀ i : Instr, decode (encode i) = .ok i) ∧ (∀ (w : EventWord) (i : Instr), decode w = .ok i → encode i = w)

/-- R45, R50: the table has 34 rows, every word matches at most one; a word that decodes matches the row that bears the
event's mnemonic, a word that matches a row decodes to an event of that row's mnemonic, and a word that matches none is
refused. -/
def Obligations.EveryWordMatchesAtMostOneRow : Prop :=
  opcodeTable.length = 34 ∧
  (∀ (w : EventWord) (r q : OpRow), r ∈ opcodeTable → q ∈ opcodeTable → r.Matches w → q.Matches w → r = q) ∧
  (∀ (w : EventWord) (i : Instr), decode w = .ok i → ∃ r ∈ opcodeTable, r.Matches w ∧ r.mnemonic = mnemonic i) ∧
  (∀ (w : EventWord) (r : OpRow), r ∈ opcodeTable → r.Matches w → ∃ i, decode w = .ok i ∧ mnemonic i = r.mnemonic) ∧
  (∀ w : EventWord, (∀ r ∈ opcodeTable, ¬r.Matches w) → ∃ e, decode w = .error e)

/-- Words written out bit by bit from the formats of R38 to R41 decode to the events they stand for. -/
def Obligations.WordsFromTheFormatsDecode : Prop :=
  decode 0b0001_000000000000_0000000001110100 = .ok (.edge 116) ∧
  decode 0b0010_0000000000000000000000000000 = .ok .ovf ∧
  decode 0b0011_0000000000000000_0001_00000001 = .ok (.wrControl 1) ∧
  decode 0b0011_0000000000000000_1000_11111111 = .ok (.wrBuf0 0xFF) ∧
  decode 0b0100_0000000000000000_0000_00000000 = .ok .rdStatus ∧
  decode 0b0100_0000000000000000_1101_00000000 = .ok .rdBuf5

/-! The classifier and EDGE. -/

/-- R53: the one range is half-open, the zero range closed, anything else invalid; with the default thresholds, the five
rows of the rule's table. -/
def Obligations.ClassifierRanges : Prop :=
  (∀ (c : Config) (w : Width), c.WellFormed →
    (classify c w = .one ↔ c.min1 ≤ w.toNat ∧ w.toNat < c.max1) ∧
    (classify c w = .zero ↔ c.min0 ≤ w.toNat ∧ w.toNat ≤ c.max0) ∧
    (classify c w = .invalid ↔
      ¬(c.min1 ≤ w.toNat ∧ w.toNat < c.max1) ∧ ¬(c.min0 ≤ w.toNat ∧ w.toNat ≤ c.max0))) ∧
  (∀ w : Width,
    (w.toNat ≤ 103 → classify Config.default w = .invalid) ∧
    (104 ≤ w.toNat ∧ w.toNat ≤ 127 → classify Config.default w = .one) ∧
    (128 ≤ w.toNat ∧ w.toNat ≤ 179 → classify Config.default w = .invalid) ∧
    (180 ≤ w.toNat ∧ w.toNat ≤ 20000 → classify Config.default w = .zero) ∧
    (20001 ≤ w.toNat → classify Config.default w = .invalid))

/-- R52, R17: while `armed = 0` an EDGE of any width changes nothing but `outcome`. -/
def Obligations.DisarmedEdgeIsIgnored : Prop :=
  ∀ (s : State) (w : Width), s.block.armed = false →
    exec (.edge w) s = .next { s with block := { s.block with outcome := .ignored }, out := ⟨some .ignored, none⟩ }

/-- R54: an invalid width while armed takes the error entry with ERR_WIDTH, whatever `fstate` and `hp_valid` are. -/
def Obligations.InvalidWidthTakesErrorEntry : Prop :=
  ∀ (s : State) (w : Width), s.block.armed = true → classify s.cfg w = .invalid →
    exec (.edge w) s = .next
      { s with
        block := { s.block with
          fstate := .idle, hp_valid := false, hp_class := false, pcount := 0, bitcnt := 0, cur := 0,
          outcome := .errWidth }
        out := ⟨some .errWidth, none⟩ }

/-- R57: with no half latched, a classified half-bit is latched and no bit is produced. -/
def Obligations.FirstHalfIsLatched : Prop :=
  ∀ (s : State) (w : Width) (cls : Bool), s.block.armed = true → classify s.cfg w = halfClass cls →
    s.block.hp_valid = false →
    exec (.edge w) s = .next
      { s with
        block := { s.block with hp_valid := true, hp_class := cls, outcome := .half }
        out := ⟨some .half, none⟩ }

/-- R59: in Idle and Preamble a mismatched half becomes the new first half; the count and the phase stay. -/
def Obligations.MismatchInPreamblePhaseResyncs : Prop :=
  ∀ (s : State) (w : Width) (cls : Bool), s.block.armed = true → classify s.cfg w = halfClass cls →
    s.block.hp_valid = true → s.block.hp_class ≠ cls → s.block.fstate = .idle ∨ s.block.fstate = .preamble →
    exec (.edge w) s = .next
      { s with block := { s.block with hp_class := cls, outcome := .resync }, out := ⟨some .resync, none⟩ }

/-- R60: a mismatch outside the preamble phase takes the error entry with ERR_PHASE. -/
def Obligations.MismatchOutsidePreambleTakesErrorEntry : Prop :=
  ∀ (s : State) (w : Width) (cls : Bool), s.block.armed = true → classify s.cfg w = halfClass cls →
    s.block.hp_valid = true → s.block.hp_class ≠ cls → s.block.fstate ≠ .idle → s.block.fstate ≠ .preamble →
    exec (.edge w) s = .next
      { s with
        block := { s.block with
          fstate := .idle, hp_valid := false, hp_class := false, pcount := 0, bitcnt := 0, cur := 0,
          outcome := .errPhase }
        out := ⟨some .errPhase, none⟩ }

/-! The framer, entered by the EDGE that completes a bit of value `hp_class` (R58, R62). -/

/-- R63: a zero-bit in Idle is taken and changes nothing but the latch and the outcome. -/
def Obligations.ZeroBitInIdleIsTaken : Prop :=
  ∀ (s : State) (w : Width), s.block.armed = true → s.block.hp_valid = true → s.block.hp_class = false →
    classify s.cfg w = .zero → s.block.fstate = .idle →
    exec (.edge w) s = .next
      { s with
        block := { s.block with hp_valid := false, hp_class := false, outcome := .bit0 }
        out := ⟨some .bit0, none⟩ }

/-- R64: the first one-bit of a preamble enters Preamble and is counted. -/
def Obligations.FirstOneBitEntersPreamble : Prop :=
  ∀ (s : State) (w : Width), s.block.armed = true → s.block.hp_valid = true → s.block.hp_class = true →
    classify s.cfg w = .one → s.block.fstate = .idle →
    exec (.edge w) s = .next
      { s with
        block := { s.block with
          hp_valid := false, hp_class := false, fstate := .preamble, pcount := 1, outcome := .bit1 }
        out := ⟨some .bit1, none⟩ }

/-- R65, R10: a further one-bit of the preamble is counted, and the count stays at 255 once it is there. -/
def Obligations.PreambleCountsAndSaturates : Prop :=
  ∀ (s : State) (w : Width), s.cfg.WellFormed → s.block.armed = true → s.block.hp_valid = true →
    s.block.hp_class = true → classify s.cfg w = .one → s.block.fstate = .preamble →
    exec (.edge w) s = .next
      { s with
        block := { s.block with
          hp_valid := false, hp_class := false,
          pcount := if s.block.pcount = 255 then 255 else s.block.pcount + 1, outcome := .bit1 }
        out := ⟨some .bit1, none⟩ }

/-- R66: a zero-bit after fewer than `PREAMBLE_MIN` one-bits takes the error entry with ERR_PREAMBLE. -/
def Obligations.ShortPreambleTakesErrorEntry : Prop :=
  ∀ (s : State) (w : Width), s.block.armed = true → s.block.hp_valid = true → s.block.hp_class = false →
    classify s.cfg w = .zero → s.block.fstate = .preamble → s.block.pcount.toNat < s.cfg.preambleMin →
    exec (.edge w) s = .next
      { s with
        block := { s.block with
          fstate := .idle, hp_valid := false, hp_class := false, pcount := 0, bitcnt := 0, cur := 0,
          outcome := .errPreamble }
        out := ⟨some .errPreamble, none⟩ }

/-- R67: a zero-bit after at least `PREAMBLE_MIN` one-bits begins a frame; the old length is discarded, `buf` is not
cleared. -/
def Obligations.LongPreambleBeginsFrame : Prop :=
  ∀ (s : State) (w : Width), s.block.armed = true → s.block.hp_valid = true → s.block.hp_class = false →
    classify s.cfg w = .zero → s.block.fstate = .preamble → s.cfg.preambleMin ≤ s.block.pcount.toNat →
    exec (.edge w) s = .next
      { s with
        block := { s.block with
          hp_valid := false, hp_class := false, fstate := .dataBit, pcount := 0, len := 0, cur := 0, bitcnt := 0,
          outcome := .bit0 }
        out := ⟨some .bit0, none⟩ }

/-- R69: a data bit that does not complete the byte is shifted in at bit 0 and counted. -/
def Obligations.DataBitIsShiftedIn : Prop :=
  ∀ (s : State) (w : Width), s.cfg.WellFormed → s.block.armed = true → s.block.hp_valid = true →
    classify s.cfg w = halfClass s.block.hp_class → s.block.fstate = .dataBit → s.block.bitcnt ≠ 7 →
    exec (.edge w) s = .next
      { s with
        block := { s.block with
          hp_valid := false, hp_class := false,
          cur := s.block.cur <<< 1 ||| (if s.block.hp_class then 1 else 0),
          bitcnt := s.block.bitcnt + 1,
          outcome := if s.block.hp_class then .bit1 else .bit0 }
        out := ⟨some (if s.block.hp_class then .bit1 else .bit0), none⟩ }

/-- R70: the eighth data bit writes the byte at index `len`, and the framer goes to EndBit when the length becomes 6, else
to StartBit. -/
def Obligations.EighthDataBitCompletesByte : Prop :=
  ∀ (s : State) (w : Width), s.cfg.WellFormed → s.block.armed = true → s.block.hp_valid = true →
    classify s.cfg w = halfClass s.block.hp_class → s.block.fstate = .dataBit → s.block.bitcnt = 7 →
    ∀ hl : s.block.len.toNat < 6,
      exec (.edge w) s = .next
        { s with
          block := { s.block with
            hp_valid := false, hp_class := false,
            buf := s.block.buf.set s.block.len.toNat (s.block.cur <<< 1 ||| (if s.block.hp_class then 1 else 0)) hl,
            len := s.block.len + 1, cur := 0, bitcnt := 0,
            fstate := if s.block.len = 5 then .endBit else .startBit,
            outcome := if s.block.hp_class then .bit1 else .bit0 }
          out := ⟨some (if s.block.hp_class then .bit1 else .bit0), none⟩ }

/-- Log entry 8, the model's choice: with no room for the byte, in a state that breaks the invariant (log entry 13), ByteDone
faults. R70 says that no event sequence gets there. -/
def Obligations.ByteWithNoRoomFaults : Prop :=
  ∀ (s : State) (w : Width), s.cfg.WellFormed → s.block.armed = true → s.block.hp_valid = true →
    classify s.cfg w = halfClass s.block.hp_class → s.block.fstate = .dataBit → s.block.bitcnt = 7 →
    6 ≤ s.block.len.toNat → exec (.edge w) s = .fault .bufferIndexOutOfRange

/-- R71: a zero-bit in StartBit begins the next data byte. -/
def Obligations.ZeroBitInStartBitBeginsByte : Prop :=
  ∀ (s : State) (w : Width), s.block.armed = true → s.block.hp_valid = true → s.block.hp_class = false →
    classify s.cfg w = .zero → s.block.fstate = .startBit →
    exec (.edge w) s = .next
      { s with
        block := { s.block with hp_valid := false, hp_class := false, fstate := .dataBit, outcome := .bit0 }
        out := ⟨some .bit0, none⟩ }

/-- R72, R73, R76: a one-bit in StartBit or EndBit is the end bit: the packet is published and capture disabled; `len` and
`buf` hold the packet. -/
def Obligations.EndBitPublishesPacket : Prop :=
  ∀ (s : State) (w : Width), s.block.armed = true → s.block.hp_valid = true → s.block.hp_class = true →
    classify s.cfg w = .one → s.block.fstate = .startBit ∨ s.block.fstate = .endBit →
    exec (.edge w) s = .next
      { s with
        block := { s.block with
          fstate := .done, hp_valid := false, hp_class := false, pcount := 0, bitcnt := 0, cur := 0,
          ready := true, armed := false, outcome := .packet }
        out := ⟨some .packet, none⟩ }

/-- R74: a zero-bit in EndBit takes the error entry with ERR_TOO_LONG; nothing is published. -/
def Obligations.SeventhByteTakesErrorEntry : Prop :=
  ∀ (s : State) (w : Width), s.block.armed = true → s.block.hp_valid = true → s.block.hp_class = false →
    classify s.cfg w = .zero → s.block.fstate = .endBit →
    exec (.edge w) s = .next
      { s with
        block := { s.block with
          fstate := .idle, hp_valid := false, hp_class := false, pcount := 0, bitcnt := 0, cur := 0,
          outcome := .errTooLong }
        out := ⟨some .errTooLong, none⟩ }

/-- R75: a bit assembled in Done takes the error entry with ERR_DONE (from a state that breaks R23.5: no run reaches it). -/
def Obligations.BitInDoneTakesErrorEntry : Prop :=
  ∀ (s : State) (w : Width), s.block.armed = true → s.block.hp_valid = true →
    classify s.cfg w = halfClass s.block.hp_class → s.block.fstate = .done →
    exec (.edge w) s = .next
      { s with
        block := { s.block with
          fstate := .idle, hp_valid := false, hp_class := false, pcount := 0, bitcnt := 0, cur := 0,
          outcome := .errDone }
        out := ⟨some .errDone, none⟩ }

/-! EDGE as a whole. -/

/-- R52, R111: in every safe state an EDGE of any width completes and emits exactly one outcome, the one it latches, never
NONE, OVF_RESET or ERR_DONE; it returns no byte. -/
def Obligations.EdgeCompletesWithOneOutcome : Prop :=
  ∀ (s : State) (w : Width), s.Inv →
    ∃ b : Block, exec (.edge w) s = .next { s with block := b, out := ⟨some b.outcome, none⟩ } ∧
      b.outcome ≠ .none ∧ b.outcome ≠ .ovfReset ∧ b.outcome ≠ .errDone

/-- R113: which check an EDGE fails, in the fixed order gate, classifier, assembler, framer. -/
def Obligations.EdgeChecksInOrder : Prop :=
  ∀ (s t : State) (w : Width), exec (.edge w) s = .next t →
    (t.out.emitted = some .ignored ↔ s.block.armed = false) ∧
    (t.out.emitted = some .errWidth ↔ s.block.armed = true ∧ classify s.cfg w = .invalid) ∧
    (t.out.emitted = some .errPhase ↔ s.block.armed = true ∧ s.block.hp_valid = true ∧
      classify s.cfg w = halfClass (!s.block.hp_class) ∧ s.block.fstate ≠ .idle ∧ s.block.fstate ≠ .preamble) ∧
    (t.out.emitted = some .errPreamble ↔ s.block.armed = true ∧ s.block.hp_valid = true ∧
      s.block.hp_class = false ∧ classify s.cfg w = .zero ∧ s.block.fstate = .preamble ∧
      s.block.pcount.toNat < s.cfg.preambleMin) ∧
    (t.out.emitted = some .errTooLong ↔ s.block.armed = true ∧ s.block.hp_valid = true ∧
      s.block.hp_class = false ∧ classify s.cfg w = .zero ∧ s.block.fstate = .endBit) ∧
    (t.out.emitted = some .errDone ↔ s.block.armed = true ∧ s.block.hp_valid = true ∧
      classify s.cfg w = halfClass s.block.hp_class ∧ s.block.fstate = .done)

/-- R110: an event that emits an error code leaves exactly the error entry's state: the timing state reset to Idle and the
code latched; `len`, `buf`, `ready` and `armed` are not written. Only an EDGE emits one. -/
def Obligations.ErrorEntryIsPrecise : Prop :=
  ∀ (i : Instr) (s t : State) (cause : OutcomeCode), exec i s = .next t → t.out.emitted = some cause →
    cause.isError = true →
    (∃ w, i = .edge w) ∧ s.block.armed = true ∧
    t = { s with
      block := { s.block with
        fstate := .idle, hp_valid := false, hp_class := false, pcount := 0, bitcnt := 0, cur := 0, outcome := cause }
      out := ⟨some cause, none⟩ }

/-- R13, R14, R16, R17: the frame of EDGE. A buffer byte changes only at index `len` and only when a byte completes; `len`
changes only then and when a frame begins; `ready` and `armed` change only when a packet is published; the configuration
and the events to come never. -/
def Obligations.EdgeFrame : Prop :=
  ∀ (s t : State) (w : Width), s.cfg.WellFormed → exec (.edge w) s = .next t →
    t.cfg = s.cfg ∧ t.inputs = s.inputs ∧ t.out.rdata = none ∧
    (∀ (j : Nat) (hj : j < 6), t.block.buf[j] = s.block.buf[j] ∨
      (j = s.block.len.toNat ∧ s.block.fstate = .dataBit ∧ s.block.bitcnt = 7 ∧ t.block.len = s.block.len + 1)) ∧
    (t.block.len = s.block.len ∨
      (s.block.fstate = .dataBit ∧ s.block.bitcnt = 7 ∧ t.block.len = s.block.len + 1) ∨
      (s.block.fstate = .preamble ∧ t.block.fstate = .dataBit ∧ t.block.len = 0)) ∧
    ((t.block.ready = s.block.ready ∧ t.block.armed = s.block.armed) ∨
      (t.out.emitted = some .packet ∧ t.block.ready = true ∧ t.block.armed = false))

/-! OVF and the host writes. -/

/-- R79: OVF resets the timing state to Idle in every state, armed or not, and writes nothing else but its outcome. -/
def Obligations.OvfResetsTimingState : Prop :=
  ∀ s : State, exec .ovf s = .next
    { s with
      block := { s.block with
        fstate := .idle, hp_valid := false, hp_class := false, pcount := 0, bitcnt := 0, cur := 0,
        outcome := .ovfReset }
      out := ⟨some .ovfReset, none⟩ }

/-- R80: a write to any of the 15 addresses other than CONTROL completes and has no effect on any state. -/
def Obligations.WritesElsewhereHaveNoEffect : Prop :=
  ∀ (s : State) (d : Byte) (i : Instr),
    i ∈ [.wrStatus d, .wrLen d, .wrXor d, .wrDiag d, .wrPcount d, .wrBitcnt d, .wrCur d, .wrBuf0 d, .wrBuf1 d,
      .wrBuf2 d, .wrBuf3 d, .wrBuf4 d, .wrBuf5 d, .wrOutcome d, .wrRsvdF d] →
    exec i s = .next { s with out := ⟨none, none⟩ }

/-- R82: a CONTROL write with bit 0 set is START in every state: it re-arms, clears `ready`, `len` and `outcome`, resets the
timing state and does not write `buf`. That START emits no outcome and returns no byte (`out`) is the model's reading: its
write of NONE to the latch is no emission (log entry 3). -/
def Obligations.StartRearms : Prop :=
  ∀ (s : State) (d : Byte), d[0] = true →
    exec (.wrControl d) s = .next
      { s with
        block := { s.block with
          fstate := .idle, hp_valid := false, hp_class := false, pcount := 0, bitcnt := 0, cur := 0, len := 0,
          ready := false, armed := true, outcome := .none }
        out := ⟨none, none⟩ }

/-- R81, R83, R84: with bit 0 clear, bit 1 clears `ready` and nothing else; with both clear there is no effect; with both set
the write is START alone; bits 7:2 are ignored. -/
def Obligations.ControlCommands : Prop :=
  ∀ (s : State) (d : Byte),
    (d[0] = false → d[1] = true →
      exec (.wrControl d) s = .next { s with block := { s.block with ready := false }, out := ⟨none, none⟩ }) ∧
    (d[0] = false → d[1] = false → exec (.wrControl d) s = .next { s with out := ⟨none, none⟩ }) ∧
    (d[0] = true → d[1] = true → exec (.wrControl d) s = exec (.wrControl 0x01) s) ∧
    exec (.wrControl d) s = exec (.wrControl (d &&& 0x03)) s

/-! The host reads. -/

/-- R93: a read of any address completes, returns the register's byte and writes no state, so a second read returns the same
byte. -/
def Obligations.ReadsWriteNoState : Prop :=
  ∀ (s : State) (a : RegAddr), ∃ v : Byte, v = s.block.readReg s.cfg a ∧
    exec (rdInstr a) s = .next { s with out := ⟨none, some v⟩ } ∧
    exec (rdInstr a) { s with out := ⟨none, some v⟩ } = .next { s with out := ⟨none, some v⟩ }

/-- R94 with R90: the bits of STATUS; VALID is `ready and len_ok and csum_ok`. -/
def Obligations.StatusReadsItsFlags : Prop :=
  ∀ s : State, ∃ v : Byte, exec .rdStatus s = .next { s with out := ⟨none, some v⟩ } ∧
    v[0] = s.block.ready ∧ v[1] = s.block.armed ∧ v[2] = s.block.lenOk s.cfg ∧ v[3] = s.block.csumOk ∧
    v[4] = (s.block.ready && s.block.lenOk s.cfg && s.block.csumOk) ∧ v[5] = false ∧ v[6] = false ∧ v[7] = false

/-- R95 to R97, R99 to R101, R104: CONTROL and the reserved address read 0x00; LEN and BITCNT return `len` and `bitcnt`
zero-extended; XOR returns the XOR of `buf[0..len-1]` (`pxor`, R87), PCOUNT `pcount`, CUR `cur`. -/
def Obligations.PlainRegisterReads : Prop :=
  ∀ s : State,
    exec .rdControl s = .next { s with out := ⟨none, some 0x00⟩ } ∧
    exec .rdRsvdF s = .next { s with out := ⟨none, some 0x00⟩ } ∧
    exec .rdXor s = .next
      { s with out := ⟨none, some ((s.block.buf.toList.take s.block.len.toNat).foldl (fun x y => x ^^^ y) 0)⟩ } ∧
    exec .rdPcount s = .next { s with out := ⟨none, some s.block.pcount⟩ } ∧
    exec .rdCur s = .next { s with out := ⟨none, some s.block.cur⟩ } ∧
    (∃ v : Byte, exec .rdLen s = .next { s with out := ⟨none, some v⟩ } ∧ v.toNat = s.block.len.toNat) ∧
    (∃ v : Byte, exec .rdBitcnt s = .next { s with out := ⟨none, some v⟩ } ∧ v.toNat = s.block.bitcnt.toNat)

/-- R98: the bits of DIAG; the phase code is one of the six of R7, never 6 or 7. -/
def Obligations.DiagReadsTimingState : Prop :=
  ∀ s : State, ∃ v : Byte, exec .rdDiag s = .next { s with out := ⟨none, some v⟩ } ∧
    v[3] = s.block.hp_valid ∧ v[4] = s.block.hp_class ∧ v[5] = false ∧ v[6] = false ∧ v[7] = false ∧
    (s.block.fstate = .idle → v.extractLsb' 0 3 = 0#3) ∧ (s.block.fstate = .preamble → v.extractLsb' 0 3 = 1) ∧
    (s.block.fstate = .startBit → v.extractLsb' 0 3 = 2) ∧ (s.block.fstate = .dataBit → v.extractLsb' 0 3 = 3) ∧
    (s.block.fstate = .endBit → v.extractLsb' 0 3 = 4) ∧ (s.block.fstate = .done → v.extractLsb' 0 3 = 5) ∧
    v.extractLsb' 0 3 ≠ 6 ∧ v.extractLsb' 0 3 ≠ 7

/-- R102: BUF0 to BUF5 return the six buffer bytes, those at `len` and above included. -/
def Obligations.BufferReads : Prop :=
  ∀ s : State, exec .rdBuf0 s = .next { s with out := ⟨none, some s.block.buf[0]⟩ } ∧
    exec .rdBuf1 s = .next { s with out := ⟨none, some s.block.buf[1]⟩ } ∧
    exec .rdBuf2 s = .next { s with out := ⟨none, some s.block.buf[2]⟩ } ∧
    exec .rdBuf3 s = .next { s with out := ⟨none, some s.block.buf[3]⟩ } ∧
    exec .rdBuf4 s = .next { s with out := ⟨none, some s.block.buf[4]⟩ } ∧
    exec .rdBuf5 s = .next { s with out := ⟨none, some s.block.buf[5]⟩ }

/-- R103 with the codes of R111: OUTCOME returns the code of the latched outcome, zero-extended. -/
def Obligations.OutcomeReadsItsCode : Prop :=
  ∀ s : State, ∃ v : Byte, exec .rdOutcome s = .next { s with out := ⟨none, some v⟩ } ∧
    v.toNat = match s.block.outcome with
      | .none => 0x0 | .ignored => 0x1 | .half => 0x2 | .resync => 0x3 | .bit0 => 0x4 | .bit1 => 0x5 | .packet => 0x6
      | .ovfReset => 0x7 | .errWidth => 0x8 | .errPhase => 0x9 | .errPreamble => 0xA | .errTooLong => 0xB
      | .errDone => 0xC

/-! The validator, the request line, and the handoff. -/

/-- R87, R88, R89, R91: `pxor` is the XOR of the first `len` bytes and of no byte above them, so 0 with `len = 0`; `len_ok` is
`len` in {3, 4, 5, 6}; `csum_ok` is "the XOR of all bytes is zero", and for `len >= 1` that is "the last byte equals the XOR of
all preceding bytes". -/
def Obligations.ChecksumFormsAgree : Prop :=
  ∀ (c : Config) (b : Block), c.WellFormed → b.len.toNat ≤ 6 →
    (b.lenOk c = true ↔ b.len.toNat = 3 ∨ b.len.toNat = 4 ∨ b.len.toNat = 5 ∨ b.len.toNat = 6) ∧
    b.pxor = (b.buf.toList.take b.len.toNat).foldl (fun x y => x ^^^ y) 0 ∧
    (b.csumOk = true ↔ b.pxor = 0) ∧
    (b.len = 0 → b.pxor = 0) ∧
    (∀ (n : Nat) (hn : n < 6), b.len.toNat = n + 1 →
      (b.csumOk = true ↔ b.buf[n] = (b.buf.toList.take n).foldl (fun x y => x ^^^ y) 0))

/-- R115: `irq` is the level of `ready`: asserted by the event that publishes a packet and dropped only by CLEAR_READY, START
or power-on reset. -/
def Obligations.RequestLineFollowsPacket : Prop :=
  ∀ s t : State, step s = .next t →
    (t.block.irq = t.block.ready) ∧
    (t.out.emitted = some .packet → t.block.irq = true) ∧
    (s.block.irq = false → t.block.irq = true → t.out.emitted = some .packet) ∧
    (s.block.irq = true → t.block.irq = false →
      (∃ draw rest, s.inputs = .powerOn draw :: rest) ∨
      (∃ w rest d, s.inputs = .event w :: rest ∧ decode w = .ok (.wrControl d) ∧ (d[0] = true ∨ d[1] = true)))

/-- R33: while `ready = 1`, and after CLEAR_READY while capture is still disabled, `len` and every buffer byte hold through
every step but START (and power-on reset). -/
def Obligations.PublishedPacketIsStable : Prop :=
  ∀ s t : State, s.Inv → step s = .next t → s.block.ready = true ∨ s.block.armed = false →
    (∀ draw rest, s.inputs ≠ .powerOn draw :: rest) →
    (∀ w rest d, s.inputs = .event w :: rest → decode w = .ok (.wrControl d) → d[0] = false) →
    t.block.len = s.block.len ∧ t.block.buf = s.block.buf ∧ t.block.packet = s.block.packet ∧ t.block.armed = false

/-- R86: the block never re-arms itself: the only step that takes `armed` from 0 to 1 is a CONTROL write with bit 0 set. -/
def Obligations.NeverRearmsItself : Prop :=
  ∀ s t : State, step s = .next t → s.block.armed = false → t.block.armed = true →
    ∃ w rest d, s.inputs = .event w :: rest ∧ decode w = .ok (.wrControl d) ∧ d[0] = true

/-- R22, R119: the timing state is written only by EDGE, OVF and START; the buffer only by EDGE; and apart from START and
CLEAR_READY no host event writes any element. -/
def Obligations.HostWritesOnlyThroughControl : Prop :=
  ∀ (i : Instr) (s t : State), exec i s = .next t → i.agent = .host →
    t.block.buf = s.block.buf ∧
    (i.isStart = false →
      t.block.fstate = s.block.fstate ∧ t.block.hp_valid = s.block.hp_valid ∧ t.block.hp_class = s.block.hp_class ∧
      t.block.pcount = s.block.pcount ∧ t.block.bitcnt = s.block.bitcnt ∧ t.block.cur = s.block.cur ∧
      t.block.len = s.block.len ∧ t.block.armed = s.block.armed ∧ t.block.outcome = s.block.outcome ∧
      (t.block.ready = s.block.ready ∨ ((∃ d, i = .wrControl d ∧ d[1] = true) ∧ t.block.ready = false)))

/-- R15: `outcome` never affects any other state: two machines that differ only in `outcome` run every event alike, and then
differ at most in `outcome` and in what RD OUTCOME returned. -/
def Obligations.OutcomeAffectsNothingElse : Prop :=
  ∀ (i : Instr) (s : State) (o : OutcomeCode),
    match exec i s, exec i { s with block := { s.block with outcome := o } } with
    | .next t, .next u =>
      { t.block with outcome := .none } = { u.block with outcome := .none } ∧ t.cfg = u.cfg ∧ t.inputs = u.inputs ∧
        t.out.emitted = u.out.emitted ∧ (i ≠ .rdOutcome → t.out.rdata = u.out.rdata)
    | .fault f, .fault g => f = g
    | _, _ => False

/-- R128: with a packet published, the consumer's reads LEN, BUF0 to BUF(len-1) and STATUS all complete and return its
length, its bytes in order, and a STATUS with READY set. -/
def Obligations.ConsumerReadsThePacket : Prop :=
  ∀ s : State, s.Inv → s.block.ready = true →
    ∃ v : Byte, v[0] = true ∧ v[4] = (s.block.lenOk s.cfg && s.block.csumOk) ∧
      readBytes (consumerReads s.block.len.toNat) s =
        some (BitVec.ofNat 8 s.block.packet.length :: (s.block.packet ++ [v])) ∧
      s.block.packet.length = s.block.len.toNat

/-! Whole-machine results. -/

/-- R23: the power-on states are safe, at every well-formed configuration and under every inputs, State.reset among them. -/
def Obligations.PowerOnStatesAreSafe : Prop :=
  (∀ (c : Config) (inputs : List Input), c.WellFormed → (State.powerOn c inputs).Inv) ∧ State.reset.Inv

/-- R23: every step keeps the invariants, from every safe state, reached or not. -/
def Obligations.EveryStepKeepsTheInvariants : Prop := ∀ s t : State, s.Inv → step s = .next t → t.Inv

/-- R23: every reachable state satisfies the invariants. 8 stands without its second clause, on who wrote the bytes: that
clause speaks of a run, and FramerPublishesExactlyTheWireFormat says it (the published bytes are the ones framed since the
fresh Idle). -/
def Obligations.ReachableStatesAreSafe : Prop := ∀ s : State, Reachable s → s.Inv

/-- R116, R70: from a safe state a step always completes, unless the word presented spells no event; the machine's one fault
never happens. -/
def Obligations.SafeStatesNeverFault : Prop :=
  ∀ s : State, s.Inv →
    (∃ t, step s = .next t) ∨
    (∃ w rest r, s.inputs = .event w :: rest ∧ decode w = .error r ∧ step s = .refused (refusalOf r))

/-- R127, R52: from power-on, as long as no START is presented, capture stays off: every EDGE is ignored and nothing is
published. -/
def Obligations.NothingDecodedBeforeStart : Prop :=
  ∀ (c : Config) (inputs : List Input), c.WellFormed →
    (∀ w d, .event w ∈ inputs → decode w = .ok (.wrControl d) → d[0] = false) →
    ∀ (k : Nat) (t : State), run k (State.powerOn c inputs) = .next t →
      t.block.armed = false ∧ t.block.ready = false ∧ t.block.len = 0 ∧
      (t.out.emitted = none ∨ t.out.emitted = some .ignored ∨ t.out.emitted = some .ovfReset)

/-- R14, R23.8 and 93_implementation_defined.md rows 1 and 2: the unspecified buffer bytes are invisible. Two machines that
differ only in them publish the same packets, and after any number of steps agree on STATUS, XOR and every element but
bytes at `len` and above. -/
def Obligations.BufferInitialValueIsInvisible : Prop :=
  ∀ (c : Config) (x y : Vector Byte 6) (inputs : List Input) (k : Nat), c.WellFormed →
    observe k (State.powerOn { c with bufInit := x } inputs) = observe k (State.powerOn { c with bufInit := y } inputs) ∧
    ∀ t : State, run k (State.powerOn { c with bufInit := x } inputs) = .next t →
      ∃ u : State, run k (State.powerOn { c with bufInit := y } inputs) = .next u ∧ t.block.AgreeBelowLen u.block ∧
        t.block.statusByte c = u.block.statusByte c ∧ t.block.pxor = u.block.pxor

/-- R78, both directions, for the framer: from a fresh Idle, the bit that publishes comes exactly at the end of
`0^z 1^p 0 B1 ... 0 Bn 1` with p >= PREAMBLE_MIN and 1 <= n <= MAX_LEN, and then the packet is B1..Bn with `len = n`; any other
bit is taken, or raises ERR_PREAMBLE or ERR_TOO_LONG. -/
def Obligations.FramerPublishesExactlyTheWireFormat : Prop :=
  ∀ (c : Config) (b m : Block) (bits : List Bool) (bit : Bool), c.WellFormed → b.freshIdle → b.tookBits c bits m →
    ∃ b' : Block, m.framerStep c bit = .ok b' ∧
      (b'.outcome = .packet ↔
        ∃ (z p : Nat) (bytes : List Byte), 12 ≤ p ∧ 1 ≤ bytes.length ∧ bytes.length ≤ 6 ∧
          bits ++ [bit] = wireBits z p bytes) ∧
      (∀ (z p : Nat) (bytes : List Byte), 12 ≤ p → 1 ≤ bytes.length → bytes.length ≤ 6 →
        bits ++ [bit] = wireBits z p bytes →
        b'.packet = bytes ∧ b'.len.toNat = bytes.length ∧ b'.ready = true ∧ b'.armed = false ∧ b'.fstate = .done) ∧
      (b'.outcome = .packet ∨ b'.outcome = bitCode bit ∨ b'.outcome = .errPreamble ∨ b'.outcome = .errTooLong)

/-- R1, R46, R47, R78 on whole runs: from a safe, armed Idle with no half latched, edges whose widths classify as the half-bits
of a well-formed packet publish exactly one packet, with exactly its bytes and length, at the last edge. -/
def Obligations.WellFormedSignalIsDecoded : Prop :=
  ∀ (s : State) (z p : Nat) (bytes : List Byte) (widths : List Width) (rest : List Input),
    s.Inv → s.block.freshIdle → 12 ≤ p → 1 ≤ bytes.length → bytes.length ≤ 6 →
    widths.map (classify s.cfg) = halfClasses (wireBits z p bytes) →
    s.inputs = widths.map edgeInput ++ rest →
    ∃ t : State, run widths.length s = .next t ∧ t.inputs = rest ∧ observe widths.length s = [bytes] ∧
      t.block.packet = bytes ∧ t.block.len.toNat = bytes.length ∧ t.block.ready = true ∧ t.block.armed = false ∧
      t.block.fstate = .done ∧ t.out.emitted = some .packet

/-- R133: a run of H ONE half-bits that begins in Idle with no ONE half latched counts as floor(H/2) one-bits (up to the
counter's 255), and with two ZERO half-bits after it a frame begins exactly when floor(H/2) >= PREAMBLE_MIN; when the run is
P one-bits less their first half, that is P >= 13. -/
def Obligations.PreambleCountsHalfTheOnes : Prop :=
  ∀ (s : State) (ones : List Width) (z1 z2 : Width) (rest : List Input),
    s.Inv → s.block.armed = true → s.block.fstate = .idle → ¬(s.block.hp_valid = true ∧ s.block.hp_class = true) →
    (∀ w ∈ ones, classify s.cfg w = .one) → classify s.cfg z1 = .zero → classify s.cfg z2 = .zero →
    s.inputs = ones.map edgeInput ++ (edgeInput z1 :: edgeInput z2 :: rest) →
    ∃ m t : State, run ones.length s = .next m ∧ m.block.pcount.toNat = min (ones.length / 2) 255 ∧
      run 2 m = .next t ∧ t.inputs = rest ∧
      (t.block.fstate = .dataBit ↔ 12 ≤ ones.length / 2) ∧
      (∀ P : Nat, 1 ≤ P → ones.length = 2 * P - 1 → (t.block.fstate = .dataBit ↔ 13 ≤ P))

/-- R51, R79: a gap of 2^16 ticks or more between two transitions ends the frame in progress, armed or not: after the events
the front end delivers for it the framer is in Idle with no bit counted, and the buffer, `len`, `ready` and `armed` are as
they were. -/
def Obligations.OverlongGapEndsTheFrame : Prop :=
  ∀ (s : State) (gap : Nat) (rest : List Input), s.Inv → 2 ^ 16 ≤ gap → s.inputs = frontEndEvents gap ++ rest →
    ∃ t : State, run (gap / 2 ^ 16 + 1) s = .next t ∧ t.inputs = rest ∧ t.block.fstate = .idle ∧ t.block.pcount = 0 ∧
      t.block.bitcnt = 0 ∧ t.block.cur = 0 ∧ t.block.len = s.block.len ∧ t.block.buf = s.block.buf ∧
      t.block.ready = s.block.ready ∧ t.block.armed = s.block.armed

/-! The trace assembler. -/

/-- R48: each base statement with its operands in range writes the word of its event; out of range it writes no word. -/
def Obligations.BaseStatementsWriteTheirWords : Prop :=
  (∀ w : Nat, (w ≤ 0xFFFF → (Base.edge w).word = some (encode (.edge (BitVec.ofNat 16 w)))) ∧
    (0xFFFF < w → (Base.edge w).word = none)) ∧
  Base.ovf.word = some (encode .ovf) ∧
  (∀ a d : Nat, (a ≤ 0xF → d ≤ 0xFF →
      (Base.wr a d).word = some (encode (wrInstr (BitVec.ofNat 4 a) (BitVec.ofNat 8 d)))) ∧
    (0xF < a ∨ 0xFF < d → (Base.wr a d).word = none)) ∧
  (∀ a : Nat, (a ≤ 0xF → (Base.rd a).word = some (encode (rdInstr (BitVec.ofNat 4 a)))) ∧
    (0xF < a → (Base.rd a).word = none))

/-- R49: the pseudo-instructions' words, and: `preamble p` then `frame b1, ..., bn` writes `2p + 18n + 2` EDGE words whose
widths, under thresholds that take 116 as ONE and 200 as ZERO, are the half-bits of the packet on the wire. The case n = 0 is
the model's choice (log entry 14). -/
def Obligations.PseudoInstructionsSpellThePacket : Prop :=
  Stmt.start.words = some [0x30000101] ∧ Stmt.clrrdy.words = some [0x30000102] ∧
  Stmt.half1.words = some [0x10000074] ∧ Stmt.half0.words = some [0x100000C8] ∧
  Stmt.bit1.words = some [0x10000074, 0x10000074] ∧ Stmt.bit0.words = some [0x100000C8, 0x100000C8] ∧
  (∀ v : Byte, ∃ ws, (Stmt.byte v.toNat).words = some ws ∧
    ws = (byteBits v).flatMap fun b => if b then [0x10000074, 0x10000074] else [0x100000C8, 0x100000C8]) ∧
  (∀ (c : Config) (p : Nat) (bytes : List Byte),
    c.min1 ≤ 116 → 116 < c.max1 → c.max1 ≤ c.min0 → c.min0 ≤ 200 → 200 ≤ c.max0 →
    ∃ widths : List Width,
      assemble [.preamble p, .frame (bytes.map fun v => v.toNat)] = some (widths.map encodeE) ∧
      widths.length = 2 * p + 18 * bytes.length + 2 ∧
      widths.map (classify c) = halfClasses (wireBits 0 p bytes))
end

