-- ==== Sys2Proof/Laws/Decode.lean ====
section
/-! SUPPORT. Sys2Proof/Laws/Decode.lean: the encoder's words as numbers and their fields (spec 30_encoding.md R38 to R41), and
the constructor of each address. -/

namespace Sys2Proof

/-- A concatenation as a number. -/
theorem toNat_append_eq {n m : Nat} (x : BitVec n) (y : BitVec m) : (x ++ y).toNat = x.toNat * 2 ^ m + y.toNat := by
  rw [BitVec.toNat_append, ← Nat.shiftLeft_add_eq_or_of_lt y.isLt, Nat.shiftLeft_eq]

theorem toNat_encodeE (w : Width) : (encodeE w).toNat = 0x10000000 + w.toNat :=
  (toNat_append_eq (0b0001#4 ++ 0#12) w).trans (by simp)

theorem toNat_encodeO : encodeO.toNat = 0x20000000 := rfl

theorem toNat_encodeHW (a : RegAddr) (d : Byte) : (encodeHW a d).toNat = 0x30000000 + a.toNat * 2 ^ 8 + d.toNat := by
  have h := toNat_append_eq ((0b0011#4 ++ 0#16) ++ a) d
  rw [toNat_append_eq (0b0011#4 ++ 0#16) a] at h
  exact h.trans (by simp; omega)

theorem toNat_encodeHR (a : RegAddr) : (encodeHR a).toNat = 0x40000000 + a.toNat * 2 ^ 8 := by
  have h := toNat_append_eq ((0b0100#4 ++ 0#16) ++ a) 0#8
  rw [toNat_append_eq (0b0100#4 ++ 0#16) a] at h
  exact h.trans (by simp; omega)

/-- A field of a word as a number. -/
theorem toNat_field (w : EventWord) (lo n : Nat) : (w.extractLsb' lo n).toNat = w.toNat / 2 ^ lo % 2 ^ n := by
  simp [Nat.shiftRight_eq_div_pow]

@[simp] theorem kind_encodeE (w : Width) : EventWord.kind (encodeE w) = 0x1#4 := by
  apply BitVec.eq_of_toNat_eq
  rw [EventWord.kind, toNat_field, toNat_encodeE, BitVec.toNat_ofNat]
  omega

@[simp] theorem kind_encodeO : EventWord.kind encodeO = 0x2#4 := by decide

@[simp] theorem kind_encodeHW (a : RegAddr) (d : Byte) : EventWord.kind (encodeHW a d) = 0x3#4 := by
  apply BitVec.eq_of_toNat_eq
  rw [EventWord.kind, toNat_field, toNat_encodeHW, BitVec.toNat_ofNat]
  omega

@[simp] theorem kind_encodeHR (a : RegAddr) : EventWord.kind (encodeHR a) = 0x4#4 := by
  apply BitVec.eq_of_toNat_eq
  rw [EventWord.kind, toNat_field, toNat_encodeHR, BitVec.toNat_ofNat]
  omega

@[simp] theorem width_encodeE (w : Width) : (encodeE w).extractLsb' 0 16 = w := by
  apply BitVec.eq_of_toNat_eq
  rw [toNat_field, toNat_encodeE]
  omega

@[simp] theorem reserved_encodeE (w : Width) : (encodeE w).extractLsb' 16 12 = 0#12 := by
  apply BitVec.eq_of_toNat_eq
  rw [toNat_field, toNat_encodeE, BitVec.toNat_ofNat]
  omega

@[simp] theorem address_encodeHW (a : RegAddr) (d : Byte) : (encodeHW a d).extractLsb' 8 4 = a := by
  apply BitVec.eq_of_toNat_eq
  rw [toNat_field, toNat_encodeHW]
  omega

@[simp] theorem data_encodeHW (a : RegAddr) (d : Byte) : (encodeHW a d).extractLsb' 0 8 = d := by
  apply BitVec.eq_of_toNat_eq
  rw [toNat_field, toNat_encodeHW]
  omega

@[simp] theorem reserved_encodeHW (a : RegAddr) (d : Byte) : (encodeHW a d).extractLsb' 12 16 = 0#16 := by
  apply BitVec.eq_of_toNat_eq
  rw [toNat_field, toNat_encodeHW, BitVec.toNat_ofNat]
  omega

@[simp] theorem address_encodeHR (a : RegAddr) : (encodeHR a).extractLsb' 8 4 = a := by
  apply BitVec.eq_of_toNat_eq
  rw [toNat_field, toNat_encodeHR]
  omega

@[simp] theorem reservedHigh_encodeHR (a : RegAddr) : (encodeHR a).extractLsb' 12 16 = 0#16 := by
  apply BitVec.eq_of_toNat_eq
  rw [toNat_field, toNat_encodeHR, BitVec.toNat_ofNat]
  omega

@[simp] theorem reservedLow_encodeHR (a : RegAddr) : (encodeHR a).extractLsb' 0 8 = 0#8 := by
  apply BitVec.eq_of_toNat_eq
  rw [toNat_field, toNat_encodeHR, BitVec.toNat_ofNat]
  omega

/-- The mask of EDGE's row keeps the word's fixed half. -/
theorem encodeE_mask (w : Width) : encodeE w &&& 0xFFFF0000#32 = 0x10000000#32 :=
  (BitVec.and_append (x₁ := (0b0001#4 ++ 0#12 : BitVec 16)) (x₂ := 0xFFFF#16) (y₁ := w) (y₂ := 0#16)).trans
    (by rw [BitVec.and_zero]; rfl)

/-- The mask of a write's row keeps everything but the data byte. -/
theorem encodeHW_mask (a : RegAddr) (d : Byte) : encodeHW a d &&& 0xFFFFFF00#32 = encodeHW a 0 :=
  (BitVec.and_append (x₁ := (0b0011#4 ++ 0#16 ++ a : BitVec 24)) (x₂ := 0xFFFFFF#24) (y₁ := d) (y₂ := 0#8)).trans
    (by rw [BitVec.and_zero]; revert a; decide)

/-- A word of EDGE's row is the word of its own width (R38). -/
theorem eq_encodeE {w : EventWord} (h : w &&& 0xFFFF0000#32 = 0x10000000#32) : w = encodeE (w.extractLsb' 0 16) := by
  have high : w.extractLsb' 16 16 = 0x1000#16 := by
    have hx := congrArg (BitVec.extractLsb' 16 16) h
    rw [BitVec.extractLsb'_and] at hx
    exact BitVec.and_allOnes.symm.trans hx
  have hn := congrArg BitVec.toNat high
  rw [toNat_field] at hn
  have hw := w.isLt
  apply BitVec.eq_of_toNat_eq
  rw [toNat_encodeE, toNat_field]
  simp only [BitVec.toNat_ofNat] at hn
  omega

/-- A word of a write's row is the word of its own data byte at the row's address (R40). -/
theorem eq_encodeHW {w : EventWord} {a : RegAddr} (h : w &&& 0xFFFFFF00#32 = encodeHW a 0) :
    w = encodeHW a (w.extractLsb' 0 8) := by
  have high : w.extractLsb' 8 24 = (encodeHW a 0).extractLsb' 8 24 := by
    have hx := congrArg (BitVec.extractLsb' 8 24) h
    rw [BitVec.extractLsb'_and] at hx
    exact BitVec.and_allOnes.symm.trans hx
  have hn := congrArg BitVec.toNat high
  rw [toNat_field, toNat_field, toNat_encodeHW] at hn
  have hw := w.isLt
  have ha := a.isLt
  apply BitVec.eq_of_toNat_eq
  rw [toNat_encodeHW, toNat_field]
  simp only [BitVec.ofNat_eq_ofNat, BitVec.toNat_ofNat] at hn
  omega

end Sys2Proof
end

