-- ==== Sys2Proof/Laws/State.lean ====
section
/-! SUPPORT. Sys2Proof/Laws/State.lean: one lemma per field per update, each true by unfolding, so that no later proof unfolds
a record update. -/

namespace Sys2Proof.Machine

@[simp] theorem Block.timingReset_fstate (f : FState) (b : Block) : (b.timingReset f).fstate = f := rfl
@[simp] theorem Block.timingReset_hp_valid (f : FState) (b : Block) : (b.timingReset f).hp_valid = false := rfl
@[simp] theorem Block.timingReset_hp_class (f : FState) (b : Block) : (b.timingReset f).hp_class = false := rfl
@[simp] theorem Block.timingReset_pcount (f : FState) (b : Block) : (b.timingReset f).pcount = 0 := rfl
@[simp] theorem Block.timingReset_bitcnt (f : FState) (b : Block) : (b.timingReset f).bitcnt = 0 := rfl
@[simp] theorem Block.timingReset_cur (f : FState) (b : Block) : (b.timingReset f).cur = 0 := rfl
@[simp] theorem Block.timingReset_len (f : FState) (b : Block) : (b.timingReset f).len = b.len := rfl
@[simp] theorem Block.timingReset_buf (f : FState) (b : Block) : (b.timingReset f).buf = b.buf := rfl
@[simp] theorem Block.timingReset_ready (f : FState) (b : Block) : (b.timingReset f).ready = b.ready := rfl
@[simp] theorem Block.timingReset_armed (f : FState) (b : Block) : (b.timingReset f).armed = b.armed := rfl
@[simp] theorem Block.timingReset_outcome (f : FState) (b : Block) : (b.timingReset f).outcome = b.outcome := rfl

@[simp] theorem Block.emit_fstate (o : OutcomeCode) (b : Block) : (b.emit o).fstate = b.fstate := rfl
@[simp] theorem Block.emit_hp_valid (o : OutcomeCode) (b : Block) : (b.emit o).hp_valid = b.hp_valid := rfl
@[simp] theorem Block.emit_hp_class (o : OutcomeCode) (b : Block) : (b.emit o).hp_class = b.hp_class := rfl
@[simp] theorem Block.emit_pcount (o : OutcomeCode) (b : Block) : (b.emit o).pcount = b.pcount := rfl
@[simp] theorem Block.emit_bitcnt (o : OutcomeCode) (b : Block) : (b.emit o).bitcnt = b.bitcnt := rfl
@[simp] theorem Block.emit_cur (o : OutcomeCode) (b : Block) : (b.emit o).cur = b.cur := rfl
@[simp] theorem Block.emit_len (o : OutcomeCode) (b : Block) : (b.emit o).len = b.len := rfl
@[simp] theorem Block.emit_buf (o : OutcomeCode) (b : Block) : (b.emit o).buf = b.buf := rfl
@[simp] theorem Block.emit_ready (o : OutcomeCode) (b : Block) : (b.emit o).ready = b.ready := rfl
@[simp] theorem Block.emit_armed (o : OutcomeCode) (b : Block) : (b.emit o).armed = b.armed := rfl
@[simp] theorem Block.emit_outcome (o : OutcomeCode) (b : Block) : (b.emit o).outcome = o := rfl

@[simp] theorem Block.frameError_fstate (o : OutcomeCode) (b : Block) : (b.frameError o).fstate = .idle := rfl
@[simp] theorem Block.frameError_hp_valid (o : OutcomeCode) (b : Block) : (b.frameError o).hp_valid = false := rfl
@[simp] theorem Block.frameError_hp_class (o : OutcomeCode) (b : Block) : (b.frameError o).hp_class = false := rfl
@[simp] theorem Block.frameError_pcount (o : OutcomeCode) (b : Block) : (b.frameError o).pcount = 0 := rfl
@[simp] theorem Block.frameError_bitcnt (o : OutcomeCode) (b : Block) : (b.frameError o).bitcnt = 0 := rfl
@[simp] theorem Block.frameError_cur (o : OutcomeCode) (b : Block) : (b.frameError o).cur = 0 := rfl
@[simp] theorem Block.frameError_len (o : OutcomeCode) (b : Block) : (b.frameError o).len = b.len := rfl
@[simp] theorem Block.frameError_buf (o : OutcomeCode) (b : Block) : (b.frameError o).buf = b.buf := rfl
@[simp] theorem Block.frameError_ready (o : OutcomeCode) (b : Block) : (b.frameError o).ready = b.ready := rfl
@[simp] theorem Block.frameError_armed (o : OutcomeCode) (b : Block) : (b.frameError o).armed = b.armed := rfl
@[simp] theorem Block.frameError_outcome (o : OutcomeCode) (b : Block) : (b.frameError o).outcome = o := rfl

@[simp] theorem Block.start_fstate (b : Block) : (b.start).fstate = .idle := rfl
@[simp] theorem Block.start_hp_valid (b : Block) : (b.start).hp_valid = false := rfl
@[simp] theorem Block.start_hp_class (b : Block) : (b.start).hp_class = false := rfl
@[simp] theorem Block.start_pcount (b : Block) : (b.start).pcount = 0 := rfl
@[simp] theorem Block.start_bitcnt (b : Block) : (b.start).bitcnt = 0 := rfl
@[simp] theorem Block.start_cur (b : Block) : (b.start).cur = 0 := rfl
@[simp] theorem Block.start_len (b : Block) : (b.start).len = 0 := rfl
@[simp] theorem Block.start_buf (b : Block) : (b.start).buf = b.buf := rfl
@[simp] theorem Block.start_ready (b : Block) : (b.start).ready = false := rfl
@[simp] theorem Block.start_armed (b : Block) : (b.start).armed = true := rfl
@[simp] theorem Block.start_outcome (b : Block) : (b.start).outcome = .none := rfl

@[simp] theorem Block.clearReady_fstate (b : Block) : (b.clearReady).fstate = b.fstate := rfl
@[simp] theorem Block.clearReady_hp_valid (b : Block) : (b.clearReady).hp_valid = b.hp_valid := rfl
@[simp] theorem Block.clearReady_hp_class (b : Block) : (b.clearReady).hp_class = b.hp_class := rfl
@[simp] theorem Block.clearReady_pcount (b : Block) : (b.clearReady).pcount = b.pcount := rfl
@[simp] theorem Block.clearReady_bitcnt (b : Block) : (b.clearReady).bitcnt = b.bitcnt := rfl
@[simp] theorem Block.clearReady_cur (b : Block) : (b.clearReady).cur = b.cur := rfl
@[simp] theorem Block.clearReady_len (b : Block) : (b.clearReady).len = b.len := rfl
@[simp] theorem Block.clearReady_buf (b : Block) : (b.clearReady).buf = b.buf := rfl
@[simp] theorem Block.clearReady_ready (b : Block) : (b.clearReady).ready = false := rfl
@[simp] theorem Block.clearReady_armed (b : Block) : (b.clearReady).armed = b.armed := rfl
@[simp] theorem Block.clearReady_outcome (b : Block) : (b.clearReady).outcome = b.outcome := rfl

@[simp] theorem Block.powerOn_fstate (d : Vector Byte 6) : (Block.powerOn d).fstate = .idle := rfl
@[simp] theorem Block.powerOn_hp_valid (d : Vector Byte 6) : (Block.powerOn d).hp_valid = false := rfl
@[simp] theorem Block.powerOn_hp_class (d : Vector Byte 6) : (Block.powerOn d).hp_class = false := rfl
@[simp] theorem Block.powerOn_pcount (d : Vector Byte 6) : (Block.powerOn d).pcount = 0 := rfl
@[simp] theorem Block.powerOn_bitcnt (d : Vector Byte 6) : (Block.powerOn d).bitcnt = 0 := rfl
@[simp] theorem Block.powerOn_cur (d : Vector Byte 6) : (Block.powerOn d).cur = 0 := rfl
@[simp] theorem Block.powerOn_len (d : Vector Byte 6) : (Block.powerOn d).len = 0 := rfl
@[simp] theorem Block.powerOn_buf (d : Vector Byte 6) : (Block.powerOn d).buf = d := rfl
@[simp] theorem Block.powerOn_ready (d : Vector Byte 6) : (Block.powerOn d).ready = false := rfl
@[simp] theorem Block.powerOn_armed (d : Vector Byte 6) : (Block.powerOn d).armed = false := rfl
@[simp] theorem Block.powerOn_outcome (d : Vector Byte 6) : (Block.powerOn d).outcome = .none := rfl

@[simp] theorem State.settle_cfg (s : State) (b : Block) (o : Output) : (s.settle b o).cfg = s.cfg := rfl
@[simp] theorem State.settle_block (s : State) (b : Block) (o : Output) : (s.settle b o).block = b := rfl
@[simp] theorem State.settle_out (s : State) (b : Block) (o : Output) : (s.settle b o).out = o := rfl
@[simp] theorem State.settle_inputs (s : State) (b : Block) (o : Output) : (s.settle b o).inputs = s.inputs := rfl

@[simp] theorem State.finishEvent_cfg (s : State) (b : Block) : (s.finishEvent b).cfg = s.cfg := rfl
@[simp] theorem State.finishEvent_block (s : State) (b : Block) : (s.finishEvent b).block = b := rfl
@[simp] theorem State.finishEvent_out (s : State) (b : Block) : (s.finishEvent b).out = Output.event b.outcome := rfl
@[simp] theorem State.finishEvent_inputs (s : State) (b : Block) : (s.finishEvent b).inputs = s.inputs := rfl

@[simp] theorem State.powerOnReset_cfg (s : State) (d : Vector Byte 6) : (s.powerOnReset d).cfg = s.cfg := rfl
@[simp] theorem State.powerOnReset_block (s : State) (d : Vector Byte 6) : (s.powerOnReset d).block = Block.powerOn d := rfl
@[simp] theorem State.powerOnReset_out (s : State) (d : Vector Byte 6) : (s.powerOnReset d).out = Output.silent := rfl
@[simp] theorem State.powerOnReset_inputs (s : State) (d : Vector Byte 6) : (s.powerOnReset d).inputs = s.inputs := rfl

@[simp] theorem State.wait_cfg (s : State) : (s.wait).cfg = s.cfg := rfl
@[simp] theorem State.wait_block (s : State) : (s.wait).block = s.block := rfl
@[simp] theorem State.wait_out (s : State) : (s.wait).out = Output.silent := rfl
@[simp] theorem State.wait_inputs (s : State) : (s.wait).inputs = s.inputs := rfl

@[simp] theorem State.withInputs_cfg (s : State) (r : List Input) : (s.withInputs r).cfg = s.cfg := rfl
@[simp] theorem State.withInputs_block (s : State) (r : List Input) : (s.withInputs r).block = s.block := rfl
@[simp] theorem State.withInputs_out (s : State) (r : List Input) : (s.withInputs r).out = s.out := rfl
@[simp] theorem State.withInputs_inputs (s : State) (r : List Input) : (s.withInputs r).inputs = r := rfl

@[simp] theorem State.powerOn_cfg (c : Config) (i : List Input) : (State.powerOn c i).cfg = c := rfl
@[simp] theorem State.powerOn_block (c : Config) (i : List Input) : (State.powerOn c i).block = Block.powerOn c.bufInit := rfl
@[simp] theorem State.powerOn_out (c : Config) (i : List Input) : (State.powerOn c i).out = Output.silent := rfl
@[simp] theorem State.powerOn_inputs (c : Config) (i : List Input) : (State.powerOn c i).inputs = i := rfl

@[simp] theorem Output.silent_emitted : Output.silent.emitted = .none := rfl
@[simp] theorem Output.silent_rdata : Output.silent.rdata = .none := rfl
@[simp] theorem Output.event_emitted (o : OutcomeCode) : (Output.event o).emitted = some o := rfl
@[simp] theorem Output.event_rdata (o : OutcomeCode) : (Output.event o).rdata = .none := rfl
@[simp] theorem Output.data_emitted (d : Byte) : (Output.data d).emitted = .none := rfl
@[simp] theorem Output.data_rdata (d : Byte) : (Output.data d).rdata = some d := rfl

@[simp] theorem Block.readReg_status (c : Config) (b : Block) : b.readReg c 0x0#4 = b.statusByte c := rfl
@[simp] theorem Block.readReg_control (c : Config) (b : Block) : b.readReg c 0x1#4 = 0x00#8 := rfl
@[simp] theorem Block.readReg_len (c : Config) (b : Block) : b.readReg c 0x2#4 = b.len.setWidth 8 := rfl
@[simp] theorem Block.readReg_xor (c : Config) (b : Block) : b.readReg c 0x3#4 = b.pxor := rfl
@[simp] theorem Block.readReg_diag (c : Config) (b : Block) : b.readReg c 0x4#4 = b.diagByte := rfl
@[simp] theorem Block.readReg_pcount (c : Config) (b : Block) : b.readReg c 0x5#4 = b.pcount := rfl
@[simp] theorem Block.readReg_bitcnt (c : Config) (b : Block) : b.readReg c 0x6#4 = b.bitcnt.setWidth 8 := rfl
@[simp] theorem Block.readReg_cur (c : Config) (b : Block) : b.readReg c 0x7#4 = b.cur := rfl
@[simp] theorem Block.readReg_buf0 (c : Config) (b : Block) : b.readReg c 0x8#4 = b.buf[0] := rfl
@[simp] theorem Block.readReg_buf1 (c : Config) (b : Block) : b.readReg c 0x9#4 = b.buf[1] := rfl
@[simp] theorem Block.readReg_buf2 (c : Config) (b : Block) : b.readReg c 0xA#4 = b.buf[2] := rfl
@[simp] theorem Block.readReg_buf3 (c : Config) (b : Block) : b.readReg c 0xB#4 = b.buf[3] := rfl
@[simp] theorem Block.readReg_buf4 (c : Config) (b : Block) : b.readReg c 0xC#4 = b.buf[4] := rfl
@[simp] theorem Block.readReg_buf5 (c : Config) (b : Block) : b.readReg c 0xD#4 = b.buf[5] := rfl
@[simp] theorem Block.readReg_outcome (c : Config) (b : Block) : b.readReg c 0xE#4 = b.outcome.code.setWidth 8 := rfl
@[simp] theorem Block.readReg_reserved (c : Config) (b : Block) : b.readReg c 0xF#4 = 0x00#8 := rfl

end Sys2Proof.Machine
end

