-- ==== Sys2Proof/Laws/Ops.lean ====
section
/-! SUPPORT. Sys2Proof/Laws/Ops.lean: for each shared operation, once, everything it can do: the inversion lemmas of the
buffer write, the framer, the assembler, EDGE, a host access and a step. Later proofs cite these and do not unfold. -/

namespace Sys2Proof.Machine

/-- What a well-formed configuration satisfies (R3, R4). -/
theorem config_wf_iff (c : Config) : c.WellFormed ↔ c.ThresholdsOk ∧ c.FixedOk := by
  simp only [Config.WellFormed, Config.wf, decide_eq_true_eq]

/-- The buffer write completes when there is room, and then it is this write (R70). -/
theorem Block.appendByte_ok {v : Byte} {b b' : Block} (h : b.appendByte v = .ok b') :
    ∃ hl : b.len.toNat < 6, b' = { b with buf := b.buf.set b.len.toNat v hl, len := b.len + 1 } := by
  unfold Block.appendByte at h
  split at h
  · next hl => exact ⟨hl, by simpa using h.symm⟩
  · cases h

/-- Everything a byte completion can do (R70). -/
theorem Block.byteDone_ok {c : Config} {v : Byte} {bit : Bool} {b b' : Block} (h : b.byteDone c v bit = .ok b') :
    ∃ hl : b.len.toNat < 6, b' = { b with
      buf := b.buf.set b.len.toNat v hl, len := b.len + 1, cur := 0, bitcnt := 0,
      fstate := if b.len.toNat + 1 = c.maxLen then .endBit else .startBit, outcome := bitCode bit } := by
  unfold Block.byteDone at h
  split at h
  · next m hm =>
    obtain ⟨hl, rfl⟩ := appendByte_ok hm
    exact ⟨hl, by simpa [Block.emit] using h.symm⟩
  · cases h

/-- With room in the buffer a byte completion completes (R70). -/
theorem Block.byteDone_completes (c : Config) (v : Byte) (bit : Bool) (b : Block) (hl : b.len.toNat < 6) :
    b.byteDone c v bit = .ok { b with
      buf := b.buf.set b.len.toNat v hl, len := b.len + 1, cur := 0, bitcnt := 0,
      fstate := if b.len.toNat + 1 = c.maxLen then .endBit else .startBit, outcome := bitCode bit } := by
  simp [Block.byteDone, Block.appendByte, hl, Block.emit]

/-- The arms of FramerStep: from block `b`, the bit `bit` leads to the block of the arm (R62). -/
inductive FramerArm (c : Config) (bit : Bool) (b : Block) : Block → Prop where
  | idleZero (hf : b.fstate = .idle) (hb : bit = false) : FramerArm c bit b (b.emit .bit0)
  | idleOne (hf : b.fstate = .idle) (hb : bit = true) :
      FramerArm c bit b { b with fstate := .preamble, pcount := 1, outcome := .bit1 }
  | preambleOne (hf : b.fstate = .preamble) (hb : bit = true) :
      FramerArm c bit b
        { b with pcount := BitVec.ofNat 8 (min (b.pcount.toNat + 1) c.pcountMax), outcome := .bit1 }
  | tooShort (hf : b.fstate = .preamble) (hb : bit = false) (hp : b.pcount.toNat < c.preambleMin) :
      FramerArm c bit b (b.frameError .errPreamble)
  | frameBegin (hf : b.fstate = .preamble) (hb : bit = false) (hp : c.preambleMin ≤ b.pcount.toNat) :
      FramerArm c bit b { b with fstate := .dataBit, pcount := 0, len := 0, cur := 0, bitcnt := 0, outcome := .bit0 }
  | dataNext (hf : b.fstate = .dataBit) (hn : b.bitcnt.toNat + 1 < c.byteBits) :
      FramerArm c bit b { b with
        cur := shiftIn b.cur bit, bitcnt := BitVec.ofNat 3 (b.bitcnt.toNat + 1), outcome := bitCode bit }
  | byteDone (hf : b.fstate = .dataBit) (hn : c.byteBits ≤ b.bitcnt.toNat + 1) (hl : b.len.toNat < 6) :
      FramerArm c bit b { b with
        buf := b.buf.set b.len.toNat (shiftIn b.cur bit) hl, len := b.len + 1, cur := 0, bitcnt := 0,
        fstate := if b.len.toNat + 1 = c.maxLen then .endBit else .startBit, outcome := bitCode bit }
  | startZero (hf : b.fstate = .startBit) (hb : bit = false) :
      FramerArm c bit b { b with fstate := .dataBit, outcome := .bit0 }
  | complete (hf : b.fstate = .startBit ∨ b.fstate = .endBit) (hb : bit = true) : FramerArm c bit b b.complete
  | tooLong (hf : b.fstate = .endBit) (hb : bit = false) : FramerArm c bit b (b.frameError .errTooLong)
  | inDone (hf : b.fstate = .done) : FramerArm c bit b (b.frameError .errDone)

/-- Everything FramerStep can do (R62). -/
theorem Block.framerStep_ok {c : Config} {bit : Bool} {b b' : Block} (h : b.framerStep c bit = .ok b') :
    FramerArm c bit b b' := by
  unfold Block.framerStep at h
  split at h
  next hf =>
    cases bit
    · obtain rfl : b.idleZero = b' := by simpa using h
      exact .idleZero hf rfl
    · obtain rfl : b.idleOne = b' := by simpa using h
      exact .idleOne hf rfl
  next hf =>
    cases bit
    · obtain rfl : b.preambleZero c = b' := by simpa using h
      unfold Block.preambleZero
      split
      · next hp => exact .tooShort hf rfl hp
      · next hp => exact .frameBegin hf rfl (Nat.le_of_not_lt hp)
    · obtain rfl : b.preambleOne c = b' := by simpa using h
      exact .preambleOne hf rfl
  next hf =>
    unfold Block.dataShift at h
    split at h
    · next hn =>
      obtain rfl : b.dataNext (shiftIn b.cur bit) (b.bitcnt.toNat + 1) bit = b' := by simpa using h
      exact .dataNext hf hn
    · next hn =>
      obtain ⟨hl, rfl⟩ := byteDone_ok h
      exact .byteDone hf (Nat.le_of_not_lt hn) hl
  next hf =>
    cases bit
    · obtain rfl : b.startZero = b' := by simpa using h
      exact .startZero hf rfl
    · obtain rfl : b.complete = b' := by simpa using h
      exact .complete (.inl hf) rfl
  next hf =>
    cases bit
    · obtain rfl : b.frameError .errTooLong = b' := by simpa using h
      exact .tooLong hf rfl
    · obtain rfl : b.complete = b' := by simpa using h
      exact .complete (.inr hf) rfl
  next hf =>
    obtain rfl : b.frameError .errDone = b' := by simpa using h
    exact .inDone hf

/-- FramerStep completes from every block that has room in the buffer where a byte may complete (R62, R70). -/
theorem Block.framerStep_completes (c : Config) (bit : Bool) (b : Block) (h : b.fstate = .dataBit → b.len.toNat < 6) :
    ∃ b', b.framerStep c bit = .ok b' := by
  unfold Block.framerStep
  split
  case h_3 hf =>
    unfold Block.dataShift
    split
    · exact ⟨_, rfl⟩
    · exact ⟨_, Block.byteDone_completes c _ bit b (h hf)⟩
  all_goals exact ⟨_, rfl⟩

/-- The arms of EDGE on the block (R52, R56, R113). The framer's arm starts from the block with the latch cleared (R58). -/
inductive EdgeArm (c : Config) (w : Width) (b : Block) : Block → Prop where
  | ignored (ha : b.armed = false) : EdgeArm c w b (b.emit .ignored)
  | badWidth (ha : b.armed = true) (hc : classify c w = .invalid) : EdgeArm c w b (b.frameError .errWidth)
  | firstHalf (ha : b.armed = true) (cls : Bool) (hc : classify c w = halfClass cls) (hv : b.hp_valid = false) :
      EdgeArm c w b { b with hp_valid := true, hp_class := cls, outcome := .half }
  | resync (ha : b.armed = true) (cls : Bool) (hc : classify c w = halfClass cls) (hv : b.hp_valid = true)
      (hm : b.hp_class ≠ cls) (hp : b.fstate = .idle ∨ b.fstate = .preamble) :
      EdgeArm c w b { b with hp_class := cls, outcome := .resync }
  | badPhase (ha : b.armed = true) (cls : Bool) (hc : classify c w = halfClass cls) (hv : b.hp_valid = true)
      (hm : b.hp_class ≠ cls) (hp : ¬(b.fstate = .idle ∨ b.fstate = .preamble)) :
      EdgeArm c w b (b.frameError .errPhase)
  | bit (ha : b.armed = true) (hc : classify c w = halfClass b.hp_class) (hv : b.hp_valid = true) (b' : Block)
      (hb : FramerArm c b.hp_class { b with hp_valid := false, hp_class := false } b') : EdgeArm c w b b'

/-- Everything the assembler can do with a class (R56). -/
theorem Block.assemble_ok {c : Config} {w : Width} {cls : Bool} {b b' : Block} (ha : b.armed = true)
    (hc : classify c w = halfClass cls) (h : b.assemble c cls = .ok b') : EdgeArm c w b b' := by
  unfold Block.assemble at h
  split at h
  · next hv =>
    obtain rfl : b.firstHalf cls = b' := by simpa using h
    exact .firstHalf ha cls hc hv
  · next hv =>
    have hv : b.hp_valid = true := by simpa using hv
    split at h
    · next hm =>
      subst hm
      exact .bit ha hc hv b' (framerStep_ok h)
    · next hm =>
      split at h
      · next hp =>
        obtain rfl : b.resync cls = b' := by simpa using h
        exact .resync ha cls hc hv hm (by simpa [Block.preamblePhase] using hp)
      · next hp =>
        obtain rfl : b.frameError .errPhase = b' := by simpa using h
        exact .badPhase ha cls hc hv hm (by simpa [Block.preamblePhase] using hp)

/-- Everything EDGE can do on the block (R52). -/
theorem Block.edge_ok {c : Config} {w : Width} {b b' : Block} (h : b.edge c w = .ok b') : EdgeArm c w b b' := by
  unfold Block.edge at h
  split at h
  · next ha =>
    obtain rfl : b.emit .ignored = b' := by simpa using h
    exact .ignored ha
  · next ha =>
    have ha : b.armed = true := by simpa using ha
    split at h
    · next hc =>
      obtain rfl : b.frameError .errWidth = b' := by simpa using h
      exact .badWidth ha hc
    · next hc => exact assemble_ok (cls := true) ha hc h
    · next hc => exact assemble_ok (cls := false) ha hc h

/-- EDGE completes from every block that has room in the buffer where a byte may complete. -/
theorem Block.edge_completes (c : Config) (w : Width) (b : Block) (h : b.fstate = .dataBit → b.len.toNat < 6) :
    ∃ b', b.edge c w = .ok b' := by
  have assemble (cls : Bool) : ∃ b', b.assemble c cls = .ok b' := by
    unfold Block.assemble
    split
    · exact ⟨_, rfl⟩
    · split
      · exact framerStep_completes c cls _ h
      · split <;> exact ⟨_, rfl⟩
  unfold Block.edge
  split
  · exact ⟨_, rfl⟩
  · split
    · exact ⟨_, rfl⟩
    · exact assemble true
    · exact assemble false

/-- EDGE answers the block of `Block.edge`, with its outcome emitted, or its fault (R52). -/
theorem exec_edge (w : Width) (s : State) : exec (.edge w) s =
    match s.block.edge s.cfg w with
    | .ok b => .next (s.finishEvent b)
    | .error f => .fault f := rfl

/-- What an event can do, whichever it is: EDGE, OVF, a write to some address, a read of some address. -/
theorem exec_cases (i : Instr) (s : State) :
    (∃ w, i = .edge w) ∨ (i = .ovf ∧ exec i s = .next (s.finishEvent ((s.block.timingReset .idle).emit .ovfReset))) ∨
    (∃ a d, i = wrInstr a d ∧ exec i s = .next (s.settle (s.block.writeReg a d) Output.silent)) ∨
    (∃ a, i = rdInstr a ∧ exec i s = .next (s.settle s.block (Output.data (s.block.readReg s.cfg a)))) := by
  cases i with
  | edge w => exact .inl ⟨w, rfl⟩
  | ovf => exact .inr (.inl ⟨rfl, rfl⟩)
  | wrStatus d => exact .inr (.inr (.inl ⟨0x0, d, rfl, rfl⟩))
  | wrControl d => exact .inr (.inr (.inl ⟨0x1, d, rfl, rfl⟩))
  | wrLen d => exact .inr (.inr (.inl ⟨0x2, d, rfl, rfl⟩))
  | wrXor d => exact .inr (.inr (.inl ⟨0x3, d, rfl, rfl⟩))
  | wrDiag d => exact .inr (.inr (.inl ⟨0x4, d, rfl, rfl⟩))
  | wrPcount d => exact .inr (.inr (.inl ⟨0x5, d, rfl, rfl⟩))
  | wrBitcnt d => exact .inr (.inr (.inl ⟨0x6, d, rfl, rfl⟩))
  | wrCur d => exact .inr (.inr (.inl ⟨0x7, d, rfl, rfl⟩))
  | wrBuf0 d => exact .inr (.inr (.inl ⟨0x8, d, rfl, rfl⟩))
  | wrBuf1 d => exact .inr (.inr (.inl ⟨0x9, d, rfl, rfl⟩))
  | wrBuf2 d => exact .inr (.inr (.inl ⟨0xA, d, rfl, rfl⟩))
  | wrBuf3 d => exact .inr (.inr (.inl ⟨0xB, d, rfl, rfl⟩))
  | wrBuf4 d => exact .inr (.inr (.inl ⟨0xC, d, rfl, rfl⟩))
  | wrBuf5 d => exact .inr (.inr (.inl ⟨0xD, d, rfl, rfl⟩))
  | wrOutcome d => exact .inr (.inr (.inl ⟨0xE, d, rfl, rfl⟩))
  | wrRsvdF d => exact .inr (.inr (.inl ⟨0xF, d, rfl, rfl⟩))
  | rdStatus => exact .inr (.inr (.inr ⟨0x0, rfl, rfl⟩))
  | rdControl => exact .inr (.inr (.inr ⟨0x1, rfl, rfl⟩))
  | rdLen => exact .inr (.inr (.inr ⟨0x2, rfl, rfl⟩))
  | rdXor => exact .inr (.inr (.inr ⟨0x3, rfl, rfl⟩))
  | rdDiag => exact .inr (.inr (.inr ⟨0x4, rfl, rfl⟩))
  | rdPcount => exact .inr (.inr (.inr ⟨0x5, rfl, rfl⟩))
  | rdBitcnt => exact .inr (.inr (.inr ⟨0x6, rfl, rfl⟩))
  | rdCur => exact .inr (.inr (.inr ⟨0x7, rfl, rfl⟩))
  | rdBuf0 => exact .inr (.inr (.inr ⟨0x8, rfl, rfl⟩))
  | rdBuf1 => exact .inr (.inr (.inr ⟨0x9, rfl, rfl⟩))
  | rdBuf2 => exact .inr (.inr (.inr ⟨0xA, rfl, rfl⟩))
  | rdBuf3 => exact .inr (.inr (.inr ⟨0xB, rfl, rfl⟩))
  | rdBuf4 => exact .inr (.inr (.inr ⟨0xC, rfl, rfl⟩))
  | rdBuf5 => exact .inr (.inr (.inr ⟨0xD, rfl, rfl⟩))
  | rdOutcome => exact .inr (.inr (.inr ⟨0xE, rfl, rfl⟩))
  | rdRsvdF => exact .inr (.inr (.inr ⟨0xF, rfl, rfl⟩))

/-- What a host write can do to the block: START, CLEAR_READY or nothing (R80, R81). -/
theorem Block.writeReg_cases (a : RegAddr) (d : Byte) (b : Block) :
    (a = 0x1#4 ∧ d[0] = true ∧ b.writeReg a d = b.start) ∨
    (a = 0x1#4 ∧ d[0] = false ∧ d[1] = true ∧ b.writeReg a d = b.clearReady) ∨
    (¬(a = 0x1#4 ∧ (d[0] = true ∨ d[1] = true)) ∧ b.writeReg a d = b) := by
  by_cases ha : a = 0x1#4
  · subst ha
    cases h0 : d[0] <;> cases h1 : d[1] <;>
      simp [Block.writeReg, Block.control, commandOf, h0, h1]
  · simp [Block.writeReg, ha]

/-- The blocks an event can leave: the arms of EDGE, the timing reset of OVF, START, CLEAR_READY, or the same block. -/
inductive EventArm (c : Config) (b : Block) : Instr → Block → Output → Prop where
  | edge (w : Width) (b' : Block) (h : EdgeArm c w b b') : EventArm c b (.edge w) b' (Output.event b'.outcome)
  | ovf : EventArm c b .ovf ((b.timingReset .idle).emit .ovfReset) (Output.event .ovfReset)
  | start (d : Byte) (h : d[0] = true) : EventArm c b (.wrControl d) b.start Output.silent
  | clearReady (d : Byte) (h0 : d[0] = false) (h1 : d[1] = true) :
      EventArm c b (.wrControl d) b.clearReady Output.silent
  | noEffect (a : RegAddr) (d : Byte) (h : ¬(a = 0x1#4 ∧ (d[0] = true ∨ d[1] = true))) :
      EventArm c b (wrInstr a d) b Output.silent
  | read (a : RegAddr) : EventArm c b (rdInstr a) b (Output.data (b.readReg c a))

/-- Everything an event can do that answers a next state. -/
theorem exec_next {i : Instr} {s t : State} (h : exec i s = .next t) :
    ∃ b o, EventArm s.cfg s.block i b o ∧ t = s.settle b o := by
  obtain ⟨w, rfl⟩ | ⟨rfl, he⟩ | ⟨a, d, rfl, he⟩ | ⟨a, rfl, he⟩ := exec_cases i s
  · rw [exec_edge] at h
    split at h
    · next b hb =>
      cases h
      exact ⟨b, _, .edge w b (Block.edge_ok hb), rfl⟩
    · cases h
  · rw [he] at h
    cases h
    exact ⟨_, _, .ovf, rfl⟩
  · rw [he] at h
    cases h
    obtain ⟨rfl, h0, hw⟩ | ⟨rfl, h0, h1, hw⟩ | ⟨hn, hw⟩ := Block.writeReg_cases a d s.block
    · exact ⟨_, _, .start d h0, by rw [hw]⟩
    · exact ⟨_, _, .clearReady d h0 h1, by rw [hw]⟩
    · exact ⟨_, _, .noEffect a d hn, by rw [hw]⟩
  · rw [he] at h
    cases h
    exact ⟨_, _, .read a, rfl⟩

/-- The steps: waiting, power-on reset, or an event that decodes and runs. -/
inductive StepArm (s : State) : State → Prop where
  | wait (hi : s.inputs = []) : StepArm s s.wait
  | powerOn (draw : Vector Byte 6) (rest : List Input) (hi : s.inputs = .powerOn draw :: rest) :
      StepArm s ((s.withInputs rest).powerOnReset draw)
  | event (w : EventWord) (rest : List Input) (i : Instr) (b : Block) (o : Output) (hi : s.inputs = .event w :: rest)
      (hd : decode w = .ok i) (he : EventArm s.cfg s.block i b o) : StepArm s ((s.withInputs rest).settle b o)

/-- Everything a step can do that answers a next state. -/
theorem step_next {s t : State} (h : step s = .next t) : s.cfg.WellFormed ∧ StepArm s t := by
  unfold step at h
  split at h
  · next hc =>
    refine ⟨hc, ?_⟩
    split at h
    · next hi =>
      cases h
      exact .wait hi
    · next draw rest hi =>
      cases h
      exact .powerOn draw rest hi
    · next w rest hi =>
      unfold stepEvent at h
      split at h
      · next i hd =>
        obtain ⟨b, o, he, rfl⟩ := exec_next h
        exact .event w rest i b o hi hd he
      · cases h
  · cases h

/-- A step with an event word presented runs that word's event, or refuses it. -/
theorem step_event {s : State} {w : EventWord} {rest : List Input} (hw : s.cfg.WellFormed)
    (hi : s.inputs = .event w :: rest) : step s = stepEvent w (s.withInputs rest) := by
  rw [step, if_pos hw, hi]

/-- A step with power-on reset presented. -/
theorem step_powerOn {s : State} {draw : Vector Byte 6} {rest : List Input} (hw : s.cfg.WellFormed)
    (hi : s.inputs = .powerOn draw :: rest) : step s = .next ((s.withInputs rest).powerOnReset draw) := by
  rw [step, if_pos hw, hi]

/-- A step with nothing presented. -/
theorem step_wait {s : State} (hw : s.cfg.WellFormed) (hi : s.inputs = []) : step s = .next s.wait := by
  rw [step, if_pos hw, hi]

/-- A step of a configuration that is not well formed. -/
theorem step_badConfig {s : State} (hw : ¬s.cfg.WellFormed) : step s = .refused .badConfig := by
  rw [step, if_neg hw]

/-- A word that decodes runs its event. -/
theorem stepEvent_ok {w : EventWord} {i : Instr} (hd : decode w = .ok i) (s : State) : stepEvent w s = exec i s := by
  rw [stepEvent, hd]

/-- A word that spells no event is refused. -/
theorem stepEvent_error {w : EventWord} {r : Reject} (hd : decode w = .error r) (s : State) :
    stepEvent w s = .refused (refusalOf r) := by
  rw [stepEvent, hd]

end Sys2Proof.Machine
end

