-- ==== Sys2Proof/Laws/PerInstr.lean ====
section
/-! SUPPORT. Sys2Proof/Laws/PerInstr.lean: the family EncodeInRow: the word the encoder writes for an event is a word of that
event's row of the opcode table (spec 30_encoding.md R45). One lemma per constructor of Instr. -/

namespace Sys2Proof.Laws.EncodeInRow

/-- The encoder's word for `i` matches the row that bears `i`'s mnemonic. -/
def Statement (i : Instr) : Prop := ∃ r ∈ opcodeTable, r.mnemonic = mnemonic i ∧ r.Matches (encode i)

/-- A write's word is in the row of its address. -/
theorem ofWrite (a : RegAddr) (d : Byte) (m : String) (h : ⟨m, encodeHW a 0, 0xFFFFFF00⟩ ∈ writeRows) :
    ∃ r ∈ opcodeTable, r.mnemonic = m ∧ r.Matches (encodeHW a d) :=
  ⟨_, List.mem_append_right _ (List.mem_append_left _ h), rfl, encodeHW_mask a d⟩

/-- A read's word is the pattern of the row of its address. -/
theorem ofRead (a : RegAddr) (m : String) (h : ⟨m, encodeHR a, 0xFFFFFFFF⟩ ∈ readRows) :
    ∃ r ∈ opcodeTable, r.mnemonic = m ∧ r.Matches (encodeHR a) :=
  ⟨_, List.mem_append_right _ (List.mem_append_right _ h), rfl, BitVec.and_allOnes⟩

theorem edge (w : Width) : Statement (.edge w) :=
  ⟨⟨"EDGE", 0x10000000, 0xFFFF0000⟩, List.mem_append_left _ (.head _), rfl, encodeE_mask w⟩

theorem ovf : Statement .ovf := ⟨⟨"OVF", 0x20000000, 0xFFFFFFFF⟩, List.mem_append_left _ (.tail _ (.head _)), rfl, by decide⟩

theorem wrStatus (d : Byte) : Statement (.wrStatus d) := ofWrite 0x0 d "WR_STATUS" (by decide)

theorem wrControl (d : Byte) : Statement (.wrControl d) := ofWrite 0x1 d "WR_CONTROL" (by decide)

theorem wrLen (d : Byte) : Statement (.wrLen d) := ofWrite 0x2 d "WR_LEN" (by decide)

theorem wrXor (d : Byte) : Statement (.wrXor d) := ofWrite 0x3 d "WR_XOR" (by decide)

theorem wrDiag (d : Byte) : Statement (.wrDiag d) := ofWrite 0x4 d "WR_DIAG" (by decide)

theorem wrPcount (d : Byte) : Statement (.wrPcount d) := ofWrite 0x5 d "WR_PCOUNT" (by decide)

theorem wrBitcnt (d : Byte) : Statement (.wrBitcnt d) := ofWrite 0x6 d "WR_BITCNT" (by decide)

theorem wrCur (d : Byte) : Statement (.wrCur d) := ofWrite 0x7 d "WR_CUR" (by decide)

theorem wrBuf0 (d : Byte) : Statement (.wrBuf0 d) := ofWrite 0x8 d "WR_BUF0" (by decide)

theorem wrBuf1 (d : Byte) : Statement (.wrBuf1 d) := ofWrite 0x9 d "WR_BUF1" (by decide)

theorem wrBuf2 (d : Byte) : Statement (.wrBuf2 d) := ofWrite 0xA d "WR_BUF2" (by decide)

theorem wrBuf3 (d : Byte) : Statement (.wrBuf3 d) := ofWrite 0xB d "WR_BUF3" (by decide)

theorem wrBuf4 (d : Byte) : Statement (.wrBuf4 d) := ofWrite 0xC d "WR_BUF4" (by decide)

theorem wrBuf5 (d : Byte) : Statement (.wrBuf5 d) := ofWrite 0xD d "WR_BUF5" (by decide)

theorem wrOutcome (d : Byte) : Statement (.wrOutcome d) := ofWrite 0xE d "WR_OUTCOME" (by decide)

theorem wrRsvdF (d : Byte) : Statement (.wrRsvdF d) := ofWrite 0xF d "WR_RSVD_F" (by decide)

theorem rdStatus : Statement .rdStatus := ofRead 0x0 "RD_STATUS" (by decide)

theorem rdControl : Statement .rdControl := ofRead 0x1 "RD_CONTROL" (by decide)

theorem rdLen : Statement .rdLen := ofRead 0x2 "RD_LEN" (by decide)

theorem rdXor : Statement .rdXor := ofRead 0x3 "RD_XOR" (by decide)

theorem rdDiag : Statement .rdDiag := ofRead 0x4 "RD_DIAG" (by decide)

theorem rdPcount : Statement .rdPcount := ofRead 0x5 "RD_PCOUNT" (by decide)

theorem rdBitcnt : Statement .rdBitcnt := ofRead 0x6 "RD_BITCNT" (by decide)

theorem rdCur : Statement .rdCur := ofRead 0x7 "RD_CUR" (by decide)

theorem rdBuf0 : Statement .rdBuf0 := ofRead 0x8 "RD_BUF0" (by decide)

theorem rdBuf1 : Statement .rdBuf1 := ofRead 0x9 "RD_BUF1" (by decide)

theorem rdBuf2 : Statement .rdBuf2 := ofRead 0xA "RD_BUF2" (by decide)

theorem rdBuf3 : Statement .rdBuf3 := ofRead 0xB "RD_BUF3" (by decide)

theorem rdBuf4 : Statement .rdBuf4 := ofRead 0xC "RD_BUF4" (by decide)

theorem rdBuf5 : Statement .rdBuf5 := ofRead 0xD "RD_BUF5" (by decide)

theorem rdOutcome : Statement .rdOutcome := ofRead 0xE "RD_OUTCOME" (by decide)

theorem rdRsvdF : Statement .rdRsvdF := ofRead 0xF "RD_RSVD_F" (by decide)

end Sys2Proof.Laws.EncodeInRow
end

