-- ==== Sys2Proof/Tests/Slice0.lean ====
section
/-! SUPPORT. Sys2Proof/Tests/Slice0.lean: the model's own tests. Every expected result is taken from a format of
spec 30_encoding.md or a vector of 95_test_vectors.md, named in the docstring. The witness theorems show, for each obligation
with hypotheses, concrete inputs that meet them. -/

namespace Sys2Proof.Tests

open Sys2Proof.Machine

/-- The default thresholds with a fixed draw of the open values. -/
def cfg : Config := { Config.default with bufInit := #v[0x11, 0x22, 0x33, 0x44, 0x55, 0x66], base := 0 }

/-- A machine at these parameters, with the events `inputs` to come. -/
def mk (b : Block) (inputs : List Input) : State := ⟨cfg, b, Output.silent, inputs⟩

/-- The block after power-on reset. -/
def off : Block := Block.powerOn #v[0x11, 0x22, 0x33, 0x44, 0x55, 0x66]

/-- The block after START: Idle, armed, no half latched. -/
def fresh : Block := { off with armed := true }

/-- State A of the vectors: the packet 80 01 81 is published. -/
def stateA : Block :=
  { off with fstate := .done, len := 3, buf := #v[0x80, 0x01, 0x81, 0x44, 0x55, 0x66], ready := true, outcome := .packet }

/-- State B of the vectors. -/
def stateB : Block := { fresh with fstate := .preamble, pcount := 7, hp_valid := true, hp_class := true, outcome := .half }

/-- State C of the vectors. -/
def stateC : Block :=
  { fresh with fstate := .dataBit, bitcnt := 4, cur := 0x0B, len := 1, buf := #v[0x80, 0x22, 0x33, 0x44, 0x55, 0x66],
               outcome := .bit1 }

/-- The premise of vector V38: the eighth bit of the third byte comes next. -/
def lastBit : Block :=
  { fresh with fstate := .dataBit, hp_valid := true, hp_class := true, bitcnt := 7, cur := 0x40, len := 2,
               buf := #v[0x80, 0x01, 0x33, 0x44, 0x55, 0x66] }

/-- The premise of vector V42: the end bit of 80 01 81 comes next. -/
def endBit : Block :=
  { fresh with fstate := .startBit, hp_valid := true, hp_class := true, len := 3,
               buf := #v[0x80, 0x01, 0x81, 0x44, 0x55, 0x66] }

/-- A block in which six bytes are framed and the second half of a bit of value `bit` comes next (V44, V45). -/
def sixBytes (bit : Bool) : Block :=
  { fresh with fstate := .endBit, hp_valid := true, hp_class := bit, len := 6, buf := #v[0x01, 0x02, 0x03, 0x04, 0x05, 0x01] }

/-- A block in the preamble with `n` one-bits counted and a half of value `bit` latched. -/
def inPreamble (n : BitVec 8) (bit : Bool) : Block :=
  { fresh with fstate := .preamble, pcount := n, hp_valid := true, hp_class := bit }

/-- The block that a step leaves, if it answers a next state. -/
def blockAfter (s : State) : Option Block :=
  match step s with
  | .next t => some t.block
  | .fault _ => none
  | .refused _ => none

/-- The byte that a step returns. -/
def byteAfter (s : State) : Option Byte :=
  match step s with
  | .next t => t.out.rdata
  | .fault _ => none
  | .refused _ => none

/-- The outcome code that an event emits. -/
def emittedBy (i : Instr) (s : State) : Option OutcomeCode :=
  match exec i s with
  | .next t => t.out.emitted
  | .fault _ => none
  | .refused _ => none

/-! WellFormed: for each check an ill-formed term, which the machine refuses. -/

/-- R4, first comparison. -/
theorem test_refuses_min1_zero : step ⟨{ cfg with min1 := 0 }, fresh, Output.silent, []⟩ = .refused .badConfig := rfl

/-- R4, second comparison. -/
theorem test_refuses_min1_not_below_max1 : step ⟨{ cfg with min1 := 128 }, fresh, Output.silent, []⟩ = .refused .badConfig := rfl

/-- R4, third comparison. -/
theorem test_refuses_max1_above_min0 : step ⟨{ cfg with max1 := 181 }, fresh, Output.silent, []⟩ = .refused .badConfig := rfl

/-- R4, fourth comparison. -/
theorem test_refuses_min0_above_max0 : step ⟨{ cfg with max0 := 179 }, fresh, Output.silent, []⟩ = .refused .badConfig := rfl

/-- R4, fifth comparison. -/
theorem test_refuses_max0_above_width : step ⟨{ cfg with max0 := 65536 }, fresh, Output.silent, []⟩ = .refused .badConfig := rfl

/-- R3 `TW`. -/
theorem test_refuses_tw : step ⟨{ cfg with tw := 17 }, fresh, Output.silent, []⟩ = .refused .badConfig := rfl

/-- R6 `PREAMBLE_MIN`. -/
theorem test_refuses_preambleMin : step ⟨{ cfg with preambleMin := 11 }, fresh, Output.silent, []⟩ = .refused .badConfig := rfl

/-- R6 `MAX_LEN`. -/
theorem test_refuses_maxLen : step ⟨{ cfg with maxLen := 7 }, fresh, Output.silent, []⟩ = .refused .badConfig := rfl

/-- R6 `BYTE_BITS`. -/
theorem test_refuses_byteBits : step ⟨{ cfg with byteBits := 9 }, fresh, Output.silent, []⟩ = .refused .badConfig := rfl

/-- R3 `VALID_LEN_MIN`. -/
theorem test_refuses_validLenMin : step ⟨{ cfg with validLenMin := 2 }, fresh, Output.silent, []⟩ = .refused .badConfig := rfl

/-- R3 `PCOUNT_MAX`. -/
theorem test_refuses_pcountMax : step ⟨{ cfg with pcountMax := 254 }, fresh, Output.silent, []⟩ = .refused .badConfig := rfl

/-- V103. -/
theorem test_refuses_kind_0 :
    ¬EventWord.WellFormed 0x00000000 ∧ step (mk fresh [.event 0x00000000]) = .refused .reservedKind :=
  ⟨by decide, rfl⟩

/-- V104. -/
theorem test_refuses_kind_5 :
    ¬EventWord.WellFormed 0x50000000 ∧ step (mk fresh [.event 0x50000000]) = .refused .reservedKind :=
  ⟨by decide, rfl⟩

/-- V106. -/
theorem test_refuses_kind_F :
    ¬EventWord.WellFormed 0xFFFFFFFF ∧ step (mk fresh [.event 0xFFFFFFFF]) = .refused .reservedKind :=
  ⟨by decide, rfl⟩

/-- V107. -/
theorem test_refuses_edge_reserved :
    ¬EventWord.WellFormed 0x10010074 ∧ step (mk fresh [.event 0x10010074]) = .refused .reservedBits :=
  ⟨by decide, rfl⟩

/-- V108. -/
theorem test_refuses_ovf_reserved :
    ¬EventWord.WellFormed 0x20000001 ∧ step (mk fresh [.event 0x20000001]) = .refused .reservedBits :=
  ⟨by decide, rfl⟩

/-- V109. -/
theorem test_refuses_wr_reserved :
    ¬EventWord.WellFormed 0x30001101 ∧ step (mk fresh [.event 0x30001101]) = .refused .reservedBits :=
  ⟨by decide, rfl⟩

/-- V110. -/
theorem test_refuses_rd_low_reserved :
    ¬EventWord.WellFormed 0x40000001 ∧ step (mk fresh [.event 0x40000001]) = .refused .reservedBits :=
  ⟨by decide, rfl⟩

/-- V111. -/
theorem test_refuses_rd_high_reserved :
    ¬EventWord.WellFormed 0x40010000 ∧ step (mk fresh [.event 0x40010000]) = .refused .reservedBits :=
  ⟨by decide, rfl⟩

/-! Decoding: for every constructor a word written out field by field from the formats of R38 to R41. -/

theorem test_decode_edge : decode 0b0001_000000000000_0000000001110100 = .ok (.edge 116) := rfl

theorem test_decode_ovf : decode 0b0010_0000000000000000000000000000 = .ok .ovf := rfl

theorem test_decode_wrStatus : decode 0b0011_0000000000000000_0000_01011010 = .ok (.wrStatus 0x5A) := rfl

theorem test_decode_wrControl : decode 0b0011_0000000000000000_0001_00000001 = .ok (.wrControl 0x01) := rfl

theorem test_decode_wrLen : decode 0b0011_0000000000000000_0010_00000101 = .ok (.wrLen 0x05) := rfl

theorem test_decode_wrXor : decode 0b0011_0000000000000000_0011_10000000 = .ok (.wrXor 0x80) := rfl

theorem test_decode_wrDiag : decode 0b0011_0000000000000000_0100_01111111 = .ok (.wrDiag 0x7F) := rfl

theorem test_decode_wrPcount : decode 0b0011_0000000000000000_0101_00001100 = .ok (.wrPcount 0x0C) := rfl

theorem test_decode_wrBitcnt : decode 0b0011_0000000000000000_0110_00000111 = .ok (.wrBitcnt 0x07) := rfl

theorem test_decode_wrCur : decode 0b0011_0000000000000000_0111_11000011 = .ok (.wrCur 0xC3) := rfl

theorem test_decode_wrBuf0 : decode 0b0011_0000000000000000_1000_11111111 = .ok (.wrBuf0 0xFF) := rfl

theorem test_decode_wrBuf1 : decode 0b0011_0000000000000000_1001_10000001 = .ok (.wrBuf1 0x81) := rfl

theorem test_decode_wrBuf2 : decode 0b0011_0000000000000000_1010_00011000 = .ok (.wrBuf2 0x18) := rfl

theorem test_decode_wrBuf3 : decode 0b0011_0000000000000000_1011_00100100 = .ok (.wrBuf3 0x24) := rfl

theorem test_decode_wrBuf4 : decode 0b0011_0000000000000000_1100_01000010 = .ok (.wrBuf4 0x42) := rfl

theorem test_decode_wrBuf5 : decode 0b0011_0000000000000000_1101_00111100 = .ok (.wrBuf5 0x3C) := rfl

theorem test_decode_wrOutcome : decode 0b0011_0000000000000000_1110_11100111 = .ok (.wrOutcome 0xE7) := rfl

theorem test_decode_wrRsvdF : decode 0b0011_0000000000000000_1111_01010101 = .ok (.wrRsvdF 0x55) := rfl

theorem test_decode_rdStatus : decode 0b0100_0000000000000000_0000_00000000 = .ok .rdStatus := rfl

theorem test_decode_rdControl : decode 0b0100_0000000000000000_0001_00000000 = .ok .rdControl := rfl

theorem test_decode_rdLen : decode 0b0100_0000000000000000_0010_00000000 = .ok .rdLen := rfl

theorem test_decode_rdXor : decode 0b0100_0000000000000000_0011_00000000 = .ok .rdXor := rfl

theorem test_decode_rdDiag : decode 0b0100_0000000000000000_0100_00000000 = .ok .rdDiag := rfl

theorem test_decode_rdPcount : decode 0b0100_0000000000000000_0101_00000000 = .ok .rdPcount := rfl

theorem test_decode_rdBitcnt : decode 0b0100_0000000000000000_0110_00000000 = .ok .rdBitcnt := rfl

theorem test_decode_rdCur : decode 0b0100_0000000000000000_0111_00000000 = .ok .rdCur := rfl

theorem test_decode_rdBuf0 : decode 0b0100_0000000000000000_1000_00000000 = .ok .rdBuf0 := rfl

theorem test_decode_rdBuf1 : decode 0b0100_0000000000000000_1001_00000000 = .ok .rdBuf1 := rfl

theorem test_decode_rdBuf2 : decode 0b0100_0000000000000000_1010_00000000 = .ok .rdBuf2 := rfl

theorem test_decode_rdBuf3 : decode 0b0100_0000000000000000_1011_00000000 = .ok .rdBuf3 := rfl

theorem test_decode_rdBuf4 : decode 0b0100_0000000000000000_1100_00000000 = .ok .rdBuf4 := rfl

theorem test_decode_rdBuf5 : decode 0b0100_0000000000000000_1101_00000000 = .ok .rdBuf5 := rfl

theorem test_decode_rdOutcome : decode 0b0100_0000000000000000_1110_00000000 = .ok .rdOutcome := rfl

theorem test_decode_rdRsvdF : decode 0b0100_0000000000000000_1111_00000000 = .ok .rdRsvdF := rfl

/-! One step of each event. -/

/-- V38. -/
theorem test_edge_completes_byte :
    blockAfter (mk lastBit [.event 0x10000074]) = some
      { lastBit with
        fstate := .startBit, hp_valid := false, hp_class := false, bitcnt := 0, cur := 0, len := 3,
        buf := #v[0x80, 0x01, 0x81, 0x44, 0x55, 0x66], outcome := .bit1 } := by decide

/-- V42. -/
theorem test_edge_publishes :
    blockAfter (mk endBit [.event 0x10000074]) = some
      { endBit with
        fstate := .done, hp_valid := false, hp_class := false, ready := true, armed := false, outcome := .packet } := by
  decide

/-- V47. -/
theorem test_ovf_resets :
    blockAfter (mk { lastBit with hp_class := false, bitcnt := 6, cur := 0x25 } [.event 0x20000000]) = some
      { lastBit with
        fstate := .idle, hp_valid := false, hp_class := false, bitcnt := 0, cur := 0, outcome := .ovfReset } := by decide

/-- V49. -/
theorem test_ovf_keeps_packet :
    blockAfter (mk stateA [.event 0x20000000]) = some { stateA with fstate := .idle, outcome := .ovfReset } := by decide

/-- V56: both bits set is START. -/
theorem test_wrControl_start :
    blockAfter (mk stateA [.event 0x30000103]) = some
      { stateA with fstate := .idle, len := 0, ready := false, armed := true, outcome := .none } := by decide

/-- V54. -/
theorem test_wrControl_clearReady :
    blockAfter (mk stateA [.event 0x30000102]) = some { stateA with ready := false } := by decide

/-- R80, as V62. -/
theorem test_wrStatus : blockAfter (mk stateA [.event 0x30000001]) = some stateA := by decide

/-- V59. -/
theorem test_wrLen : blockAfter (mk stateA [.event 0x30000205]) = some stateA := by decide

/-- R80. -/
theorem test_wrXor : blockAfter (mk stateA [.event 0x300003FF]) = some stateA := by decide

/-- R80. -/
theorem test_wrDiag : blockAfter (mk stateA [.event 0x300004FF]) = some stateA := by decide

/-- R80. -/
theorem test_wrPcount : blockAfter (mk stateA [.event 0x300005FF]) = some stateA := by decide

/-- R80. -/
theorem test_wrBitcnt : blockAfter (mk stateA [.event 0x300006FF]) = some stateA := by decide

/-- R80. -/
theorem test_wrCur : blockAfter (mk stateA [.event 0x300007FF]) = some stateA := by decide

/-- V60. -/
theorem test_wrBuf0 : blockAfter (mk stateA [.event 0x300008FF]) = some stateA := by decide

/-- R80. -/
theorem test_wrBuf1 : blockAfter (mk stateA [.event 0x300009FF]) = some stateA := by decide

/-- R80. -/
theorem test_wrBuf2 : blockAfter (mk stateA [.event 0x30000AFF]) = some stateA := by decide

/-- R80. -/
theorem test_wrBuf3 : blockAfter (mk stateA [.event 0x30000BFF]) = some stateA := by decide

/-- R80. -/
theorem test_wrBuf4 : blockAfter (mk stateA [.event 0x30000CFF]) = some stateA := by decide

/-- R80. -/
theorem test_wrBuf5 : blockAfter (mk stateA [.event 0x30000DFF]) = some stateA := by decide

/-- R80. -/
theorem test_wrOutcome : blockAfter (mk stateA [.event 0x30000EFF]) = some stateA := by decide

/-- R80, as V61. -/
theorem test_wrRsvdF : blockAfter (mk stateA [.event 0x30000F55]) = some stateA := by decide

/-- V76. -/
theorem test_rdStatus_A : byteAfter (mk stateA [.event 0x40000000]) = some 0x1D := by decide

/-- V96. -/
theorem test_rdStatus_C : byteAfter (mk stateC [.event 0x40000000]) = some 0x02 := by decide

/-- V77. -/
theorem test_rdControl_A : byteAfter (mk stateA [.event 0x40000100]) = some 0x00 := by decide

/-- V78. -/
theorem test_rdLen_A : byteAfter (mk stateA [.event 0x40000200]) = some 0x03 := by decide

/-- V98. -/
theorem test_rdXor_C : byteAfter (mk stateC [.event 0x40000300]) = some 0x80 := by decide

/-- V93. -/
theorem test_rdDiag_B : byteAfter (mk stateB [.event 0x40000400]) = some 0x19 := by decide

/-- V80. -/
theorem test_rdDiag_A : byteAfter (mk stateA [.event 0x40000400]) = some 0x05 := by decide

/-- V94. -/
theorem test_rdPcount_B : byteAfter (mk stateB [.event 0x40000500]) = some 0x07 := by decide

/-- V100. -/
theorem test_rdBitcnt_C : byteAfter (mk stateC [.event 0x40000600]) = some 0x04 := by decide

/-- V101. -/
theorem test_rdCur_C : byteAfter (mk stateC [.event 0x40000700]) = some 0x0B := by decide

/-- V84. -/
theorem test_rdBuf0_A : byteAfter (mk stateA [.event 0x40000800]) = some 0x80 := by decide

/-- V85. -/
theorem test_rdBuf1_A : byteAfter (mk stateA [.event 0x40000900]) = some 0x01 := by decide

/-- V86. -/
theorem test_rdBuf2_A : byteAfter (mk stateA [.event 0x40000A00]) = some 0x81 := by decide

/-- V87 with I3 = 44. -/
theorem test_rdBuf3_A : byteAfter (mk stateA [.event 0x40000B00]) = some 0x44 := by decide

/-- V88 with I4 = 55. -/
theorem test_rdBuf4_A : byteAfter (mk stateA [.event 0x40000C00]) = some 0x55 := by decide

/-- V89 with I5 = 66. -/
theorem test_rdBuf5_A : byteAfter (mk stateA [.event 0x40000D00]) = some 0x66 := by decide

/-- V90. -/
theorem test_rdOutcome_A : byteAfter (mk stateA [.event 0x40000E00]) = some 0x06 := by decide

/-- V95. -/
theorem test_rdOutcome_B : byteAfter (mk stateB [.event 0x40000E00]) = some 0x02 := by decide

/-- V91. -/
theorem test_rdRsvdF_A : byteAfter (mk stateA [.event 0x40000F00]) = some 0x00 := by decide

/-- The text form of R48 with the words of R48 and R49. -/
theorem test_assembleText :
    assembleText "# boot\nstart\nedge 0x96 # bad\nwr BUF0, 255\nrd 0xE" =
      some [0x30000101, 0x10000096, 0x300008FF, 0x40000E00] := by decide

/-- R48: an operand out of range is an error and no word is written. -/
theorem test_assembleText_error : assembleText "edge 65536" = none := by decide

/-! Witnesses: concrete inputs that meet the hypotheses of each obligation that has any, one for each clause, at the values
where clauses meet. -/

theorem witness_PowerOnResetState : cfg.WellFormed ∧ Config.default.WellFormed := ⟨by decide, by decide⟩

theorem witness_PowerOnResetBetweenEvents :
    let s := mk stateB [.powerOn #v[1, 2, 3, 4, 5, 6], .event 0x10000074]
    s.cfg.WellFormed ∧ s.inputs = .powerOn #v[1, 2, 3, 4, 5, 6] :: [.event 0x10000074] := by decide

theorem witness_ThresholdConstraintHoldsOrRefused :
    cfg.ThresholdsOk ∧ { cfg with min1 := 1, max1 := 2, min0 := 2, max0 := 2 }.ThresholdsOk ∧
      { cfg with max0 := 65535 }.ThresholdsOk ∧
      (let c := (⟨{ cfg with max0 := 65536 }, fresh, Output.silent, []⟩ : State).cfg
       ¬(0 < c.min1 ∧ c.min1 < c.max1 ∧ c.max1 ≤ c.min0 ∧ c.min0 ≤ c.max0 ∧ c.max0 ≤ 2 ^ c.tw - 1)) := by decide

theorem witness_StepRunsTheDecodedEvent :
    (let s := mk fresh [.event 0x10000074, .event 0x20000000]
     s.cfg.WellFormed ∧ s.inputs = .event 0x10000074 :: [.event 0x20000000] ∧ decode 0x10000074 = .ok (.edge 116)) ∧
    (mk fresh []).cfg.WellFormed ∧ (mk fresh []).inputs = [] := by decide

theorem witness_WordsThatSpellNoEventAreRefused :
    (EventWord.kind 0x0FFFFFFF = 0x0#4 ∧ 0x5#4 ≤ EventWord.kind 0x50000000 ∧ 0x5#4 ≤ EventWord.kind 0xF0000000) ∧
    (EventWord.kind 0x10010000 = 0x1#4 ∧ BitVec.extractLsb' 16 12 (0x10010000 : EventWord) ≠ 0#12 ∧
      EventWord.kind 0x18000000 = 0x1#4 ∧ BitVec.extractLsb' 16 12 (0x18000000 : EventWord) ≠ 0#12) ∧
    (EventWord.kind 0x20000001 = 0x2#4 ∧ BitVec.extractLsb' 0 28 (0x20000001 : EventWord) ≠ 0#28 ∧
      EventWord.kind 0x28000000 = 0x2#4 ∧ BitVec.extractLsb' 0 28 (0x28000000 : EventWord) ≠ 0#28) ∧
    (EventWord.kind 0x30001000 = 0x3#4 ∧ BitVec.extractLsb' 12 16 (0x30001000 : EventWord) ≠ 0#16 ∧
      EventWord.kind 0x38000000 = 0x3#4 ∧ BitVec.extractLsb' 12 16 (0x38000000 : EventWord) ≠ 0#16) ∧
    (EventWord.kind 0x40001000 = 0x4#4 ∧ BitVec.extractLsb' 12 16 (0x40001000 : EventWord) ≠ 0#16 ∧
      EventWord.kind 0x40000080 = 0x4#4 ∧ BitVec.extractLsb' 0 8 (0x40000080 : EventWord) ≠ 0#8) ∧
    (let s := mk fresh [.event 0x50000000]
     s.cfg.WellFormed ∧ s.inputs = .event 0x50000000 :: [] ∧ decode 0x50000000 = .error .reservedKind) ∧
    (let s := mk fresh [.event 0x20000001]
     s.cfg.WellFormed ∧ s.inputs = .event 0x20000001 :: [] ∧ decode 0x20000001 = .error .reservedBits) := by decide

theorem witness_DecodeAndEncodeAgree : decode 0x300001FF = .ok (.wrControl 0xFF) := rfl

theorem witness_EveryWordMatchesAtMostOneRow :
    (⟨"WR_CONTROL", 0x30000100, 0xFFFFFF00⟩ ∈ opcodeTable ∧
      OpRow.Matches ⟨"WR_CONTROL", 0x30000100, 0xFFFFFF00⟩ 0x300001FF) ∧
    decode 0x300001FF = .ok (.wrControl 0xFF) ∧ ∀ r ∈ opcodeTable, ¬r.Matches 0x30001000 := by decide

theorem witness_ClassifierRanges :
    cfg.WellFormed ∧ (103 : Width).toNat ≤ 103 ∧ (104 ≤ (104 : Width).toNat ∧ (104 : Width).toNat ≤ 127) ∧
      (104 ≤ (127 : Width).toNat ∧ (127 : Width).toNat ≤ 127) ∧ (128 ≤ (128 : Width).toNat ∧ (128 : Width).toNat ≤ 179) ∧
      (128 ≤ (179 : Width).toNat ∧ (179 : Width).toNat ≤ 179) ∧ (180 ≤ (180 : Width).toNat ∧ (180 : Width).toNat ≤ 20000) ∧
      (180 ≤ (20000 : Width).toNat ∧ (20000 : Width).toNat ≤ 20000) ∧ 20001 ≤ (20001 : Width).toNat ∧
      20001 ≤ (65535 : Width).toNat := by decide

/-- V13. -/
theorem witness_DisarmedEdgeIsIgnored : (mk off []).block.armed = false ∧ (mk stateA []).block.armed = false := by decide

/-- V15, V12. -/
theorem witness_InvalidWidthTakesErrorEntry :
    (mk stateC []).block.armed = true ∧ classify (mk stateC []).cfg 150 = .invalid ∧
      classify (mk fresh []).cfg 65535 = .invalid := by decide

/-- V17, V18. -/
theorem witness_FirstHalfIsLatched :
    let s := mk fresh []
    s.block.armed = true ∧ classify s.cfg 116 = halfClass true ∧ classify s.cfg 200 = halfClass false ∧
      s.block.hp_valid = false := by decide

/-- V21, V22. -/
theorem witness_MismatchInPreamblePhaseResyncs :
    (let s := mk { fresh with hp_valid := true } []
     s.block.armed = true ∧ classify s.cfg 116 = halfClass true ∧ s.block.hp_valid = true ∧ s.block.hp_class ≠ true ∧
       (s.block.fstate = .idle ∨ s.block.fstate = .preamble)) ∧
    (let s := mk (inPreamble 5 true) []
     s.block.armed = true ∧ classify s.cfg 200 = halfClass false ∧ s.block.hp_valid = true ∧ s.block.hp_class ≠ false ∧
       (s.block.fstate = .idle ∨ s.block.fstate = .preamble)) := by decide

/-- V26. -/
theorem witness_MismatchOutsidePreambleTakesErrorEntry :
    let s := mk (sixBytes true) []
    s.block.armed = true ∧ classify s.cfg 200 = halfClass false ∧ s.block.hp_valid = true ∧ s.block.hp_class ≠ false ∧
      s.block.fstate ≠ .idle ∧ s.block.fstate ≠ .preamble := by decide

/-- V20. -/
theorem witness_ZeroBitInIdleIsTaken :
    let s := mk { fresh with hp_valid := true } []
    s.block.armed = true ∧ s.block.hp_valid = true ∧ s.block.hp_class = false ∧ classify s.cfg 200 = .zero ∧
      s.block.fstate = .idle := by decide

/-- V19. -/
theorem witness_FirstOneBitEntersPreamble :
    let s := mk { fresh with hp_valid := true, hp_class := true } []
    s.block.armed = true ∧ s.block.hp_valid = true ∧ s.block.hp_class = true ∧ classify s.cfg 116 = .one ∧
      s.block.fstate = .idle := by decide

/-- V29, V30. -/
theorem witness_PreambleCountsAndSaturates :
    (let s := mk (inPreamble 254 true) []
     s.cfg.WellFormed ∧ s.block.armed = true ∧ s.block.hp_valid = true ∧ s.block.hp_class = true ∧
       classify s.cfg 116 = .one ∧ s.block.fstate = .preamble ∧ s.block.pcount ≠ 255) ∧
    (let s := mk (inPreamble 255 true) []
     s.block.armed = true ∧ s.block.fstate = .preamble ∧ s.block.pcount = 255) := by decide

/-- V31. -/
theorem witness_ShortPreambleTakesErrorEntry :
    let s := mk (inPreamble 11 false) []
    s.block.armed = true ∧ s.block.hp_valid = true ∧ s.block.hp_class = false ∧ classify s.cfg 200 = .zero ∧
      s.block.fstate = .preamble ∧ s.block.pcount.toNat < s.cfg.preambleMin := by decide

/-- V33. -/
theorem witness_LongPreambleBeginsFrame :
    let s := mk (inPreamble 12 false) []
    s.block.armed = true ∧ s.block.hp_valid = true ∧ s.block.hp_class = false ∧ classify s.cfg 200 = .zero ∧
      s.block.fstate = .preamble ∧ s.cfg.preambleMin ≤ s.block.pcount.toNat := by decide

/-- V36, V37. -/
theorem witness_DataBitIsShiftedIn :
    (let s := mk { stateC with hp_valid := true, hp_class := true } []
     s.cfg.WellFormed ∧ s.block.armed = true ∧ s.block.hp_valid = true ∧
       classify s.cfg 116 = halfClass s.block.hp_class ∧ s.block.fstate = .dataBit ∧ s.block.bitcnt ≠ 7) ∧
    (let s := mk { stateC with hp_valid := true, bitcnt := 6 } []
     classify s.cfg 200 = halfClass s.block.hp_class ∧ s.block.fstate = .dataBit ∧ s.block.bitcnt ≠ 7) := by decide

/-- V38, V40. -/
theorem witness_EighthDataBitCompletesByte :
    (let s := mk lastBit []
     s.cfg.WellFormed ∧ s.block.armed = true ∧ s.block.hp_valid = true ∧
       classify s.cfg 116 = halfClass s.block.hp_class ∧ s.block.fstate = .dataBit ∧ s.block.bitcnt = 7 ∧
       s.block.len.toNat < 6) ∧
    (let s := mk { lastBit with len := 5 } []
     s.block.fstate = .dataBit ∧ s.block.bitcnt = 7 ∧ s.block.len.toNat < 6 ∧ s.block.len = 5) := by decide

theorem witness_ByteWithNoRoomFaults :
    let s := mk { lastBit with len := 6 } []
    s.cfg.WellFormed ∧ s.block.armed = true ∧ s.block.hp_valid = true ∧
      classify s.cfg 116 = halfClass s.block.hp_class ∧ s.block.fstate = .dataBit ∧ s.block.bitcnt = 7 ∧
      6 ≤ s.block.len.toNat := by decide

/-- V41. -/
theorem witness_ZeroBitInStartBitBeginsByte :
    let s := mk { endBit with hp_class := false } []
    s.block.armed = true ∧ s.block.hp_valid = true ∧ s.block.hp_class = false ∧ classify s.cfg 200 = .zero ∧
      s.block.fstate = .startBit := by decide

/-- V42, V44. -/
theorem witness_EndBitPublishesPacket :
    (let s := mk endBit []
     s.block.armed = true ∧ s.block.hp_valid = true ∧ s.block.hp_class = true ∧ classify s.cfg 116 = .one ∧
       (s.block.fstate = .startBit ∨ s.block.fstate = .endBit)) ∧
    (let s := mk (sixBytes true) []
     s.block.armed = true ∧ s.block.hp_valid = true ∧ s.block.hp_class = true ∧ classify s.cfg 116 = .one ∧
       (s.block.fstate = .startBit ∨ s.block.fstate = .endBit)) := by decide

/-- V45. -/
theorem witness_SeventhByteTakesErrorEntry :
    let s := mk (sixBytes false) []
    s.block.armed = true ∧ s.block.hp_valid = true ∧ s.block.hp_class = false ∧ classify s.cfg 200 = .zero ∧
      s.block.fstate = .endBit := by decide

/-- V46. -/
theorem witness_BitInDoneTakesErrorEntry :
    let s := mk { stateA with armed := true, hp_valid := true, hp_class := true } []
    s.block.armed = true ∧ s.block.hp_valid = true ∧ classify s.cfg 116 = halfClass s.block.hp_class ∧
      s.block.fstate = .done := by decide

/-- A machine at the test parameters is safe when its block keeps the invariants. -/
theorem safe (b : Block) (inputs : List Input) (h : b.Inv cfg) : (mk b inputs).Inv :=
  ⟨(by decide : cfg.WellFormed), h⟩

theorem off_inv : off.Inv cfg := by constructor <;> decide

theorem fresh_inv : fresh.Inv cfg := by constructor <;> decide

theorem stateA_inv : stateA.Inv cfg := by constructor <;> decide

theorem stateB_inv : stateB.Inv cfg := by constructor <;> decide

theorem lastBit_inv : lastBit.Inv cfg := by constructor <;> decide

theorem sixBytes_inv : (sixBytes false).Inv cfg := by constructor <;> decide

theorem witness_EdgeCompletesWithOneOutcome : (mk lastBit []).Inv ∧ (mk (sixBytes false) []).Inv :=
  ⟨safe _ _ lastBit_inv, safe _ _ sixBytes_inv⟩

theorem witness_EdgeChecksInOrder :
    emittedBy (.edge 116) (mk off []) = some .ignored ∧ emittedBy (.edge 150) (mk (sixBytes true) []) = some .errWidth ∧
      emittedBy (.edge 200) (mk (sixBytes true) []) = some .errPhase ∧
      emittedBy (.edge 200) (mk (inPreamble 11 false) []) = some .errPreamble ∧
      emittedBy (.edge 200) (mk (sixBytes false) []) = some .errTooLong ∧
      emittedBy (.edge 116) (mk { stateA with armed := true, hp_valid := true, hp_class := true } []) = some .errDone := by
  decide

theorem witness_ErrorEntryIsPrecise :
    ∃ t, exec (.edge 150) (mk stateC []) = .next t ∧ t.out.emitted = some .errWidth ∧ OutcomeCode.isError .errWidth = true :=
  ⟨_, rfl, rfl, rfl⟩

theorem witness_EdgeFrame :
    (mk lastBit []).cfg.WellFormed ∧ (∃ t, exec (.edge 116) (mk lastBit []) = .next t) ∧
      (∃ t, exec (.edge 200) (mk (inPreamble 12 false) []) = .next t) ∧ ∃ t, exec (.edge 116) (mk endBit []) = .next t :=
  ⟨by decide, ⟨_, rfl⟩, ⟨_, rfl⟩, ⟨_, rfl⟩⟩

theorem witness_WritesElsewhereHaveNoEffect :
    let d : Byte := 0xFF
    let elsewhere : List Instr :=
      [.wrStatus d, .wrLen d, .wrXor d, .wrDiag d, .wrPcount d, .wrBitcnt d, .wrCur d, .wrBuf0 d, .wrBuf1 d, .wrBuf2 d,
        .wrBuf3 d, .wrBuf4 d, .wrBuf5 d, .wrOutcome d, .wrRsvdF d]
    .wrStatus d ∈ elsewhere ∧ .wrRsvdF d ∈ elsewhere := by decide

theorem witness_StartRearms : (0x01 : Byte)[0] = true ∧ (0xFF : Byte)[0] = true := by decide

theorem witness_ControlCommands :
    ((0x02 : Byte)[0] = false ∧ (0x02 : Byte)[1] = true) ∧ ((0xFC : Byte)[0] = false ∧ (0xFC : Byte)[1] = false) ∧
      ((0x03 : Byte)[0] = true ∧ (0x03 : Byte)[1] = true) := by decide

theorem witness_ChecksumFormsAgree :
    cfg.WellFormed ∧ (off.len.toNat ≤ 6 ∧ off.len = 0) ∧
      ((sixBytes true).len.toNat ≤ 6 ∧ (sixBytes true).len.toNat = 5 + 1) ∧ stateC.len.toNat = 0 + 1 := by decide

theorem witness_RequestLineFollowsPacket :
    (∃ t, step (mk endBit [.event 0x10000074]) = .next t ∧ t.out.emitted = some .packet ∧
      (mk endBit [.event 0x10000074]).block.irq = false ∧ t.block.irq = true) ∧
    (∃ t, step (mk stateA [.event 0x30000102]) = .next t ∧ (mk stateA [.event 0x30000102]).block.irq = true ∧
      t.block.irq = false) ∧
    ∃ t, step (mk stateA [.powerOn #v[0, 0, 0, 0, 0, 0]]) = .next t ∧ t.block.irq = false :=
  ⟨⟨_, rfl, rfl, rfl, rfl⟩, ⟨_, rfl, rfl, rfl⟩, ⟨_, rfl, rfl⟩⟩

theorem witness_PublishedPacketIsStable :
    (mk stateA [.event 0x20000000]).Inv ∧ (∃ t, step (mk stateA [.event 0x20000000]) = .next t) ∧
      (mk stateA [.event 0x20000000]).block.ready = true ∧
      (∀ draw rest, (mk stateA [.event 0x20000000]).inputs ≠ .powerOn draw :: rest) ∧
      ∀ w rest d, (mk stateA [.event 0x20000000]).inputs = .event w :: rest → decode w = .ok (.wrControl d) →
        d[0] = false := by
  refine ⟨safe _ _ stateA_inv, ⟨_, rfl⟩, rfl, fun draw rest h => (by cases h), fun w rest d h hd => ?_⟩
  cases h
  cases (show decode 0x20000000 = .ok .ovf from rfl).symm.trans hd

theorem witness_NeverRearmsItself :
    ∃ t, step (mk off [.event 0x30000101]) = .next t ∧ (mk off [.event 0x30000101]).block.armed = false ∧
      t.block.armed = true :=
  ⟨_, rfl, rfl, rfl⟩

theorem witness_HostWritesOnlyThroughControl :
    (∃ t, exec (.wrControl 0x02) (mk stateA []) = .next t) ∧ (Instr.wrControl 0x02).agent = .host ∧
      (Instr.wrControl 0x02).isStart = false ∧ (∃ t, exec .rdBuf5 (mk stateB []) = .next t) ∧
      Instr.rdBuf5.agent = .host ∧ Instr.rdBuf5.isStart = false :=
  ⟨⟨_, rfl⟩, rfl, rfl, ⟨_, rfl⟩, rfl, rfl⟩

theorem witness_ConsumerReadsThePacket :
    (mk stateA []).Inv ∧ (mk stateA []).block.ready = true := ⟨safe _ _ stateA_inv, rfl⟩

theorem witness_PowerOnStatesAreSafe : Config.default.WellFormed := by decide

theorem witness_EveryStepKeepsTheInvariants :
    ((mk lastBit [.event 0x10000074]).Inv ∧ ∃ t, step (mk lastBit [.event 0x10000074]) = .next t) ∧
      (mk stateA [.event 0x30000101]).Inv ∧ ∃ t, step (mk stateA [.event 0x30000101]) = .next t :=
  ⟨⟨safe _ _ lastBit_inv, _, rfl⟩, safe _ _ stateA_inv, _, rfl⟩

theorem witness_ReachableStatesAreSafe :
    ∃ t, step (State.powerOn cfg [.event 0x30000101]) = .next t ∧ Reachable t ∧ t.block.armed = true :=
  ⟨_, rfl, .step (State.powerOn cfg [.event 0x30000101]) _ (.powerOn cfg _ (by decide)) rfl, rfl⟩

theorem witness_SafeStatesNeverFault :
    (mk lastBit [.event 0x10000074]).Inv ∧ (mk stateB [.event 0x50000000]).Inv :=
  ⟨safe _ _ lastBit_inv, safe _ _ stateB_inv⟩

theorem witness_NothingDecodedBeforeStart :
    cfg.WellFormed ∧
      (∀ w d, .event w ∈ [Input.event 0x10000074, .event 0x30000102] → decode w = .ok (.wrControl d) → d[0] = false) ∧
      ∃ t, run 3 (State.powerOn cfg [.event 0x10000074, .event 0x30000102]) = .next t := by
  refine ⟨by decide, fun w d hw hd => ?_, _, rfl⟩
  simp only [List.mem_cons, Input.event.injEq, List.not_mem_nil, or_false] at hw
  obtain rfl | rfl := hw
  · cases (show decode 0x10000074 = .ok (.edge 116) from rfl).symm.trans hd
  · cases (show decode 0x30000102 = .ok (.wrControl 0x02) from rfl).symm.trans hd
    rfl

theorem witness_BufferInitialValueIsInvisible :
    cfg.WellFormed ∧
      ∃ t, run 1 (State.powerOn { cfg with bufInit := #v[1, 2, 3, 4, 5, 6] } [.event 0x30000101]) = .next t :=
  ⟨by decide, _, rfl⟩

/-- The block after the framer has taken the bits, if it takes them all. -/
def takeAll (bits : List Bool) (b : Block) : Option Block :=
  match bits with
  | [] => some b
  | bit :: rest =>
    match b.framerStep cfg bit with
    | .ok m => if m.outcome = bitCode bit then takeAll rest m else none
    | .error _ => none

theorem takeAll_took {bits : List Bool} {b m : Block} (h : takeAll bits b = some m) : b.tookBits cfg bits m := by
  induction bits generalizing b with
  | nil => exact Option.some.inj h
  | cons bit rest ih =>
    unfold takeAll at h
    split at h
    · next k hk =>
      split at h
      · next ho => exact ⟨k, ⟨hk, ho⟩, ih h⟩
      · cases h
    · cases h

theorem witness_FramerPublishesExactlyTheWireFormat :
    cfg.WellFormed ∧ fresh.freshIdle ∧
      ∃ m, fresh.tookBits cfg (List.replicate 12 true ++ wireByte 0xA5) m ∧
        (List.replicate 12 true ++ wireByte 0xA5) ++ [true] = wireBits 0 12 [0xA5] := by
  refine ⟨by decide, by unfold Block.freshIdle; decide, ?_⟩
  obtain ⟨m, hm⟩ := Option.isSome_iff_exists.1
    (show (takeAll (List.replicate 12 true ++ wireByte 0xA5) fresh).isSome = true by decide +kernel)
  exact ⟨m, takeAll_took hm, by decide +kernel⟩

/-- Nominal widths that spell the bits. -/
def nominal (bits : List Bool) : List Width := bits.flatMap fun b => if b then [116, 116] else [200, 200]

theorem witness_WellFormedSignalIsDecoded :
    (mk fresh ((nominal (wireBits 1 12 [0x80, 0x01, 0x81])).map edgeInput ++ [.event 0x20000000])).Inv ∧ fresh.freshIdle ∧
      (nominal (wireBits 1 12 [0x80, 0x01, 0x81])).map (classify cfg) = halfClasses (wireBits 1 12 [0x80, 0x01, 0x81]) ∧
      (nominal (wireBits 0 12 [1, 2, 3, 4, 5, 1])).map (classify cfg) = halfClasses (wireBits 0 12 [1, 2, 3, 4, 5, 1]) :=
  ⟨safe _ _ fresh_inv, by unfold Block.freshIdle; decide, by decide +kernel, by decide +kernel⟩

theorem witness_PreambleCountsHalfTheOnes :
    (mk fresh ((List.replicate 25 (116 : Width)).map edgeInput ++ [edgeInput 200, edgeInput 200])).Inv ∧
      fresh.armed = true ∧ fresh.fstate = .idle ∧ ¬(fresh.hp_valid = true ∧ fresh.hp_class = true) ∧
      (∀ w ∈ List.replicate 25 (116 : Width), classify cfg w = .one) ∧ classify cfg 200 = .zero ∧
      (List.replicate 25 (116 : Width)).length = 2 * 13 - 1 :=
  ⟨safe _ _ fresh_inv, rfl, rfl, by decide, fun w h => by rw [List.eq_of_mem_replicate h]; decide, by decide, rfl⟩

theorem witness_OverlongGapEndsTheFrame :
    (mk lastBit (frontEndEvents 65536)).Inv ∧ 2 ^ 16 ≤ 65536 ∧
      (mk lastBit (frontEndEvents 65536)).inputs = frontEndEvents 65536 ++ [] :=
  ⟨safe _ _ lastBit_inv, by decide, rfl⟩

theorem witness_BaseStatementsWriteTheirWords :
    (0xFFFF ≤ 0xFFFF ∧ 0xFFFF < 0x10000) ∧ (0xF ≤ 0xF ∧ 0xFF ≤ 0xFF ∧ 0xF < 0x10 ∧ 0xFF < 0x100) := by decide

theorem witness_PseudoInstructionsSpellThePacket :
    cfg.min1 ≤ 116 ∧ 116 < cfg.max1 ∧ cfg.max1 ≤ cfg.min0 ∧ cfg.min0 ≤ 200 ∧ 200 ≤ cfg.max0 := by decide


end Sys2Proof.Tests
end

section
/-! SUPPORT. Runs of the machine: a run cut in two, the step of one EDGE, and the two EDGEs that spell one bit (spec
00_scope.md R2, 41_bit_assembler.md R56 to R58). -/

namespace Sys2Proof.Machine

/-- The word written for an EDGE decodes to it (R38). -/
theorem decode_encodeE (w : Width) : decode (encodeE w) = .ok (.edge w) := by
  simp [decode, decodeEdge]

/-- A step with an EDGE presented, when the block takes it (R52). -/
theorem step_edgeInput {s : State} {w : Width} {rest : List Input} {b : Block} (hw : s.cfg.WellFormed)
    (hi : s.inputs = edgeInput w :: rest) (hb : s.block.edge s.cfg w = .ok b) :
    step s = .next ((s.withInputs rest).finishEvent b) := by
  rw [step_event hw hi, stepEvent_ok (decode_encodeE w), exec_edge, State.withInputs_block, State.withInputs_cfg, hb]

/-- `k` steps lead from `s` to `t` and publish `packets` on the way. -/
structure State.RunsTo (k : Nat) (s t : State) (packets : List (List Byte)) : Prop where
  run_eq : run k s = .next t
  observe_eq : observe k s = packets

theorem State.RunsTo.refl (s : State) : s.RunsTo 0 s [] := ⟨rfl, rfl⟩

/-- One step in front of a run. -/
theorem State.RunsTo.head {k : Nat} {s t u : State} {ps : List (List Byte)} (h : step s = .next t)
    (r : t.RunsTo k u ps) : s.RunsTo (k + 1) u (t.published.toList ++ ps) where
  run_eq := by rw [run, h]; exact r.run_eq
  observe_eq := by
    rw [observe, h, ← r.observe_eq]
    dsimp only
    cases t.published <;> rfl

theorem State.RunsTo.zero {s t : State} {ps : List (List Byte)} (r : s.RunsTo 0 t ps) : s = t ∧ ps = [] :=
  ⟨Host.Outcome.next.inj r.run_eq, r.observe_eq.symm⟩

/-- The first step of a run, and the rest of it. -/
theorem State.RunsTo.uncons {k : Nat} {s u : State} {ps : List (List Byte)} (r : s.RunsTo (k + 1) u ps) :
    ∃ t qs, step s = .next t ∧ t.RunsTo k u qs ∧ ps = t.published.toList ++ qs := by
  have hr := r.run_eq
  rw [run] at hr
  split at hr
  · next t ht =>
    have tail : t.RunsTo k u (observe k t) := ⟨hr, rfl⟩
    exact ⟨t, _, ht, tail, r.observe_eq.symm.trans (tail.head ht).observe_eq⟩
  · cases hr
  · cases hr

/-- Two runs, one after the other. -/
theorem State.RunsTo.trans {j k : Nat} {s t u : State} {ps qs : List (List Byte)} (r : s.RunsTo j t ps)
    (r' : t.RunsTo k u qs) : s.RunsTo (j + k) u (ps ++ qs) := by
  induction j generalizing s ps with
  | zero =>
    obtain ⟨rfl, rfl⟩ := r.zero
    simpa using r'
  | succ j ih =>
    obtain ⟨m, ms, hm, tail, rfl⟩ := r.uncons
    rw [Nat.succ_add, List.append_assoc]
    exact (ih tail).head hm

/-- Capture is enabled and no half is latched: the next half-bit is a first half (R57). -/
structure Block.Listening (b : Block) : Prop where
  armed : b.armed = true
  latch_valid : b.hp_valid = false
  latch_class : b.hp_class = false

/-- An armed EDGE of a valid class runs the assembler (R52, R53). -/
theorem Block.edge_of_halfClass {c : Config} {w : Width} {cls : Bool} {b : Block} (ha : b.armed = true)
    (hc : classify c w = halfClass cls) : b.edge c w = b.assemble c cls := by
  cases cls <;> simp [Block.edge, ha, hc, halfClass]

/-- The framer does not read the outcome latch (R15). -/
theorem Block.framerStep_emit (c : Config) (bit : Bool) (o : OutcomeCode) (b : Block) :
    (b.emit o).framerStep c bit = b.framerStep c bit := by
  have completion (v : Byte) : (b.emit o).byteDone c v bit = b.byteDone c v bit := by
    by_cases hl : b.len.toNat < 6
    · rw [Block.byteDone_completes c v bit b hl, Block.byteDone_completes c v bit (b.emit o) hl]
      rfl
    · simp [Block.byteDone, Block.appendByte, hl]
  have data : (b.emit o).dataShift c bit = b.dataShift c bit := by
    rw [Block.dataShift, completion]
    rfl
  unfold Block.framerStep
  rw [Block.emit_fstate, data]
  cases b.fstate <;> cases bit <;> rfl

/-- The first half of a bit is latched (R57). -/
theorem Block.Listening.edge_first {c : Config} {w : Width} {bit : Bool} {b : Block} (h : b.Listening)
    (hc : classify c w = halfClass bit) : b.edge c w = .ok (b.firstHalf bit) := by
  rw [Block.edge_of_halfClass h.armed hc, Block.assemble, if_pos h.latch_valid]

/-- The second half of a bit hands the bit to the framer (R58). -/
theorem Block.Listening.edge_second {c : Config} {w : Width} {bit : Bool} {b : Block} (h : b.Listening)
    (hc : classify c w = halfClass bit) : (b.firstHalf bit).edge c w = b.framerStep c bit := by
  obtain ⟨ha, hv, hk⟩ := h
  have unlatched : { b.firstHalf bit with hp_valid := false, hp_class := false } = b.emit .half := by
    cases b
    subst hv hk
    rfl
  have assembled : (b.firstHalf bit).assemble c bit = (b.firstHalf bit).completeBit c bit := by
    simp [Block.assemble, Block.firstHalf, Block.emit]
  rw [Block.edge_of_halfClass (b := b.firstHalf bit) ha hc, assembled, Block.completeBit, unlatched,
    Block.framerStep_emit]

/-- Two EDGEs of one class run the framer on their bit (R46, R56). -/
theorem runsTo_bit {s : State} {w₁ w₂ : Width} {rest : List Input} {bit : Bool} {b : Block}
    (hw : s.cfg.WellFormed) (hl : s.block.Listening) (h₁ : classify s.cfg w₁ = halfClass bit)
    (h₂ : classify s.cfg w₂ = halfClass bit) (hi : s.inputs = edgeInput w₁ :: edgeInput w₂ :: rest)
    (hb : s.block.framerStep s.cfg bit = .ok b) :
    s.RunsTo 2 ((s.withInputs rest).finishEvent b) (if b.outcome = .packet then [b.packet] else []) := by
  have first := step_edgeInput hw hi (hl.edge_first h₁)
  have second := step_edgeInput (s := (s.withInputs (edgeInput w₂ :: rest)).finishEvent (s.block.firstHalf bit))
    hw rfl ((hl.edge_second h₂).trans hb)
  have both := (State.RunsTo.refl _).head second |>.head first
  have packets : (((s.withInputs rest).finishEvent b).published.toList : List (List Byte)) =
      if b.outcome = .packet then [b.packet] else [] := by
    by_cases ho : b.outcome = .packet <;> simp [State.published, ho]
  rw [← packets, ← List.append_nil (Option.toList _)]
  exact both

/-- A bit that the framer takes leaves the block listening (R58, R62). -/
theorem Block.Listening.tookBit {c : Config} {bit : Bool} {b b' : Block} (hl : b.Listening)
    (h : b.tookBit c bit b') : b'.Listening := by
  obtain ⟨hs, ho⟩ := h
  obtain ⟨ha, hv, hk⟩ := hl
  cases Block.framerStep_ok hs
  case complete => cases bit <;> cases ho
  all_goals exact ⟨ha, by simp [hv], by simp [hk]⟩

/-- A bit that the framer takes publishes nothing. -/
theorem Block.tookBit_not_packet {c : Config} {bit : Bool} {b b' : Block} (h : b.tookBit c bit b') :
    b'.outcome ≠ .packet := by
  rw [h.2]
  cases bit <;> decide

/-- EDGEs that spell bits which the framer takes bring the block where the bits bring it, and publish nothing. -/
theorem runsTo_tookBits {s : State} {bits : List Bool} {widths : List Width} {rest : List Input} {m : Block}
    (hw : s.cfg.WellFormed) (hl : s.block.Listening) (hc : widths.map (classify s.cfg) = halfClasses bits)
    (hi : s.inputs = widths.map edgeInput ++ rest) (ht : s.block.tookBits s.cfg bits m) :
    ∃ t, s.RunsTo widths.length t [] ∧ t.cfg = s.cfg ∧ t.block = m ∧ t.inputs = rest ∧ m.Listening := by
  induction bits generalizing s widths with
  | nil =>
    obtain rfl : widths = [] := List.map_eq_nil_iff.1 hc
    obtain rfl : s.block = m := ht
    exact ⟨s, .refl s, rfl, rfl, hi, hl⟩
  | cons bit bits ih =>
    obtain ⟨w₁, _, rfl, h₁, hc⟩ := List.map_eq_cons_iff.1 hc
    obtain ⟨w₂, ws, rfl, h₂, hc⟩ := List.map_eq_cons_iff.1 hc
    obtain ⟨b, hb, ht⟩ := ht
    have pair := runsTo_bit hw hl h₁ h₂ hi hb.1
    rw [if_neg (Block.tookBit_not_packet hb)] at pair
    obtain ⟨t, later, ends⟩ :=
      ih (s := (s.withInputs (ws.map edgeInput ++ rest)).finishEvent b) hw (hl.tookBit hb) hc rfl ht
    have two : (w₁ :: w₂ :: ws).length = 2 + ws.length := Nat.add_comm ws.length 2
    exact ⟨t, two ▸ pair.trans later, ends⟩

/-- EDGEs that spell bits which the framer takes, and then one bit more, which it may publish. -/
theorem runsTo_tookBits_bit {s : State} {bits : List Bool} {bit : Bool} {widths : List Width} {rest : List Input}
    {m b : Block} (hw : s.cfg.WellFormed) (hl : s.block.Listening)
    (hc : widths.map (classify s.cfg) = halfClasses (bits ++ [bit])) (hi : s.inputs = widths.map edgeInput ++ rest)
    (ht : s.block.tookBits s.cfg bits m) (hb : m.framerStep s.cfg bit = .ok b) :
    ∃ t, s.RunsTo widths.length t (if b.outcome = .packet then [b.packet] else []) ∧ t.block = b ∧
      t.out = Output.event b.outcome ∧ t.inputs = rest := by
  rw [halfClasses, List.flatMap_append] at hc
  obtain ⟨ws, lastTwo, rfl, hws, hlast⟩ := List.map_eq_append_iff.1 hc
  obtain ⟨w₁, _, rfl, h₁, hlast⟩ := List.map_eq_cons_iff.1 hlast
  obtain ⟨w₂, _, rfl, h₂, hlast⟩ := List.map_eq_cons_iff.1 hlast
  obtain rfl := List.map_eq_nil_iff.1 hlast
  obtain ⟨t, taken, hcfg, rfl, hin, hlt⟩ :=
    runsTo_tookBits (rest := edgeInput w₁ :: edgeInput w₂ :: rest) hw hl hws (by simpa using hi) ht
  rw [← hcfg] at hw h₁ h₂ hb
  exact ⟨_, by simpa using taken.trans (runsTo_bit hw hlt h₁ h₂ hin hb), rfl, rfl, rfl⟩

end Sys2Proof.Machine
end

section
/-! SUPPORT. The framer on the wire format: what each piece of `0^z 1^p 0 B1 ... 0 Bn 1` does to it (spec 30_encoding.md
R47, 42_packet_framer.md R62 to R78). -/

namespace Sys2Proof.Machine

/-- The framer takes the bits from `b` and ends in a block with `P`. -/
def Block.Takes (c : Config) (bits : List Bool) (b : Block) (P : Block → Prop) : Prop := ∃ m, b.tookBits c bits m ∧ P m

theorem Block.Takes.nil {c : Config} {b : Block} {P : Block → Prop} (h : P b) : b.Takes c [] P := ⟨b, rfl, h⟩

theorem Block.Takes.cons {c : Config} {bit : Bool} {bits : List Bool} {b m : Block} {P : Block → Prop}
    (h : b.tookBit c bit m) (hm : m.Takes c bits P) : b.Takes c (bit :: bits) P := by
  obtain ⟨b', ht, hp⟩ := hm
  exact ⟨b', ⟨m, h, ht⟩, hp⟩

theorem Block.Takes.single {c : Config} {bit : Bool} {b m : Block} {P : Block → Prop} (h : b.tookBit c bit m)
    (hp : P m) : b.Takes c [bit] P := .cons h (.nil hp)

/-- Bits taken one list after the other. -/
theorem Block.Takes.append {c : Config} {xs ys : List Bool} {b : Block} {P Q : Block → Prop} (h : b.Takes c xs P)
    (hq : ∀ m, P m → m.Takes c ys Q) : b.Takes c (xs ++ ys) Q := by
  obtain ⟨m, ht, hp⟩ := h
  induction xs generalizing b with
  | nil => obtain rfl : b = m := ht; exact hq b hp
  | cons bit xs ih =>
    obtain ⟨k, hk, ht⟩ := ht
    exact .cons hk (ih ht)

/-- Zero-bits in Idle are noise (R63). -/
theorem Block.takes_zeros_idle (c : Config) (z : Nat) {b : Block} (hf : b.fstate = .idle) :
    b.Takes c (List.replicate z false) (·.fstate = .idle) := by
  induction z generalizing b with
  | zero => exact .nil hf
  | succ z ih => exact .cons (m := b.idleZero) ⟨by rw [Block.framerStep, hf]; rfl, rfl⟩ (ih hf)

/-- One-bits in Preamble are counted, up to 255 (R65). -/
theorem Block.takes_ones_preamble {c : Config} (hc : c.FixedOk) (n : Nat) {b : Block} (hf : b.fstate = .preamble) :
    b.Takes c (List.replicate n true)
      fun m => m.fstate = .preamble ∧ m.pcount.toNat = min (b.pcount.toNat + n) 255 := by
  obtain ⟨-, -, -, -, -, hmax⟩ := hc
  induction n generalizing b with
  | zero => exact .nil ⟨hf, by omega⟩
  | succ n ih =>
    have counted : (b.preambleOne c).pcount.toNat = min (b.pcount.toNat + 1) 255 := by
      simp only [Block.preambleOne, Block.emit_pcount, hmax, BitVec.toNat_ofNat]
      omega
    obtain ⟨m, ht, hm, hp⟩ := ih (b := b.preambleOne c) hf
    exact .cons (m := b.preambleOne c) ⟨by rw [Block.framerStep, hf]; rfl, rfl⟩ ⟨m, ht, hm, by omega⟩

/-- A run of one-bits in Idle is a preamble, counted up to 255 (R64, R65). -/
theorem Block.takes_ones_idle {c : Config} (hc : c.FixedOk) {p : Nat} (hp : 1 ≤ p) {b : Block}
    (hf : b.fstate = .idle) :
    b.Takes c (List.replicate p true) fun m => m.fstate = .preamble ∧ m.pcount.toNat = min p 255 := by
  obtain ⟨n, rfl⟩ := Nat.exists_eq_add_of_le' hp
  obtain ⟨m, ht, hm, hn⟩ := takes_ones_preamble hc n (b := b.idleOne) rfl
  refine .cons (m := b.idleOne) ⟨by rw [Block.framerStep, hf]; rfl, rfl⟩ ⟨m, ht, hm, ?_⟩
  rw [hn, Nat.add_comm]
  rfl

/-- `bytes` are framed and the framer is at a byte's first data bit (R68). -/
structure Block.AtByte (bytes : List Byte) (b : Block) : Prop where
  fstate_eq : b.fstate = .dataBit
  bitcnt_eq : b.bitcnt = 0
  cur_eq : b.cur = 0
  len_eq : b.len.toNat = bytes.length
  packet_eq : b.packet = bytes
  room : bytes.length < 6

/-- `bytes` are framed, 6 of them at most, and the framer is between two bytes (R70). -/
structure Block.AfterByte (bytes : List Byte) (b : Block) : Prop where
  fstate_eq : b.fstate = if bytes.length = 6 then .endBit else .startBit
  bitcnt_eq : b.bitcnt = 0
  cur_eq : b.cur = 0
  len_eq : b.len.toNat = bytes.length
  packet_eq : b.packet = bytes

/-- The zero-bit after a long enough preamble begins a frame with no byte (R67). -/
theorem Block.takes_frameBegin {c : Config} (hc : c.FixedOk) {b : Block} (hf : b.fstate = .preamble)
    (hp : 12 ≤ b.pcount.toNat) : b.Takes c [false] (AtByte []) := by
  obtain ⟨-, hmin, -⟩ := hc
  have begins : b.framerStep c false = .ok b.frameBegin := by
    simp [Block.framerStep, hf, Block.preambleZero, hmin, Nat.not_lt.2 hp]
  exact .single ⟨begins, rfl⟩ ⟨rfl, rfl, rfl, rfl, rfl, by decide⟩

/-- A start bit between two bytes begins the next byte (R71). -/
theorem Block.AfterByte.takes_startBit (c : Config) {bytes : List Byte} {b : Block} (h : b.AfterByte bytes)
    (hn : bytes.length < 6) : b.Takes c [false] (AtByte bytes) := by
  have hf : b.fstate = .startBit := h.fstate_eq.trans (if_neg (by omega))
  exact .single (m := b.startZero) ⟨by rw [Block.framerStep, hf]; rfl, rfl⟩
    ⟨rfl, h.bitcnt_eq, h.cur_eq, h.len_eq, h.packet_eq, hn⟩

/-- A data bit that does not complete the byte is taken (R69). -/
theorem Block.tookBit_dataNext {c : Config} (hc : c.FixedOk) (bit : Bool) {b : Block} (hf : b.fstate = .dataBit)
    (hn : b.bitcnt.toNat + 1 < 8) :
    b.tookBit c bit (b.dataNext (shiftIn b.cur bit) (b.bitcnt.toNat + 1) bit) := by
  obtain ⟨-, -, -, hbits, -⟩ := hc
  exact ⟨by simp [Block.framerStep, hf, Block.dataShift, hbits, hn], rfl⟩

/-- Data bits that do not complete the byte are shifted into `cur`, and the bytes already framed stay (R69). -/
theorem Block.takes_dataNext {c : Config} (hc : c.FixedOk) (bits : List Bool) {b : Block} (hf : b.fstate = .dataBit)
    (hn : b.bitcnt.toNat + bits.length < 8) :
    b.Takes c bits fun m => m.fstate = .dataBit ∧ m.bitcnt.toNat = b.bitcnt.toNat + bits.length ∧
      m.cur = bits.foldl shiftIn b.cur ∧ m.len = b.len ∧ m.buf = b.buf := by
  induction bits generalizing b with
  | nil => exact .nil ⟨hf, rfl, rfl, rfl, rfl⟩
  | cons bit bits ih =>
    rw [List.length_cons] at hn ⊢
    have counted : (b.dataNext (shiftIn b.cur bit) (b.bitcnt.toNat + 1) bit).bitcnt.toNat = b.bitcnt.toNat + 1 := by
      simp only [Block.dataNext, Block.emit_bitcnt, BitVec.toNat_ofNat]
      omega
    obtain ⟨m, ht, hm, hk, kept⟩ := ih (b := b.dataNext (shiftIn b.cur bit) (b.bitcnt.toNat + 1) bit) hf (by omega)
    exact .cons (tookBit_dataNext hc bit hf (by omega)) ⟨m, ht, hm, by omega, kept⟩

/-- Shifting in a byte's bits in wire order gives the byte (R12, R25). -/
theorem foldl_shiftIn_byteBits (v : Byte) : (byteBits v).foldl shiftIn 0 = v := by
  revert v
  decide

/-- The packet with one byte more in the buffer. -/
theorem Block.packet_append {b b' : Block} {v : Byte} (hl : b.len.toNat < 6)
    (hbuf : b'.buf = b.buf.set b.len.toNat v hl) (hlen : b'.len.toNat = b.len.toNat + 1) :
    b'.packet = b.packet ++ [v] := by
  rw [Block.packet, Block.packet, hbuf, hlen, Vector.toList_set, List.take_succ_eq_append_getElem (by simpa using hl),
    List.take_set_of_le (Nat.le_refl _), List.getElem_set_self]

/-- The eighth data bit completes the byte (R70). -/
theorem Block.takes_byteDone {c : Config} (hc : c.FixedOk) {bytes : List Byte} {bit : Bool} {b : Block}
    (hf : b.fstate = .dataBit) (hn : b.bitcnt.toNat = 7) (hl : b.len.toNat = bytes.length)
    (hp : b.packet = bytes) (room : bytes.length < 6) :
    b.Takes c [bit] (AfterByte (bytes ++ [shiftIn b.cur bit])) := by
  obtain ⟨-, -, hmax, hbits, -⟩ := hc
  have completes : b.framerStep c bit = b.byteDone c (shiftIn b.cur bit) bit := by
    simp [Block.framerStep, hf, Block.dataShift, hbits, hn]
  have longer : (b.len + 1).toNat = b.len.toNat + 1 := by
    rw [BitVec.toNat_add]
    simp only [BitVec.ofNat_eq_ofNat, BitVec.toNat_ofNat]
    omega
  have hlt : b.len.toNat < 6 := hl ▸ room
  refine .single ⟨completes.trans (byteDone_completes c _ bit b hlt), rfl⟩ ⟨?_, rfl, rfl, ?_, ?_⟩
  · simp [hl, hmax]
  · exact longer.trans (by simp [hl])
  · exact (packet_append hlt rfl longer).trans (by rw [hp])

/-- The eight bits of a byte, bit 7 first, put it after the bytes already framed (R68 to R70). -/
theorem Block.AtByte.takes_byteBits {c : Config} (hc : c.FixedOk) (v : Byte) {bytes : List Byte} {b : Block}
    (h : b.AtByte bytes) : b.Takes c (byteBits v) (AfterByte (bytes ++ [v])) := by
  have seven := takes_dataNext hc (byteBits v).dropLast h.fstate_eq (by rw [h.bitcnt_eq]; exact Nat.lt_succ_self 7)
  refine seven.append (ys := [v[0]]) fun m ⟨hf, hn, hcur, hl, hbuf⟩ => ?_
  have hp : m.packet = bytes := by rw [← h.packet_eq, Block.packet, Block.packet, hl, hbuf]
  have whole : shiftIn m.cur v[0] = v := by
    rw [hcur, h.cur_eq]
    exact foldl_shiftIn_byteBits v
  have last := takes_byteDone hc (bit := v[0]) hf (by rw [hn, h.bitcnt_eq]; rfl) (hl ▸ h.len_eq) hp h.room
  rwa [whole] at last

/-- Bytes with their start bits are framed one after the other (R47, R70, R71). -/
theorem Block.AfterByte.takes_wireBytes {c : Config} (hc : c.FixedOk) (more : List Byte) {bytes : List Byte}
    {b : Block} (h : b.AfterByte bytes) (hn : bytes.length + more.length ≤ 6) :
    b.Takes c (more.flatMap wireByte) (AfterByte (bytes ++ more)) := by
  induction more generalizing bytes b with
  | nil => exact .nil (by simpa using h)
  | cons v more ih =>
    rw [List.length_cons] at hn
    have byte : b.Takes c (wireByte v) (AfterByte (bytes ++ [v])) :=
      (h.takes_startBit c (by omega)).append fun _ hm => hm.takes_byteBits hc v
    rw [List.flatMap_cons, ← List.singleton_append, ← List.append_assoc]
    exact byte.append fun _ hm => ih hm (by simp; omega)

/-- Everything of a well-formed signal before its end bit is taken, and its bytes are framed (R78). -/
theorem Block.takes_wireFormat {c : Config} (hc : c.FixedOk) (z : Nat) {p : Nat} {bytes : List Byte} (hp : 12 ≤ p)
    (h₁ : 1 ≤ bytes.length) (h₆ : bytes.length ≤ 6) {b : Block} (hf : b.fstate = .idle) :
    b.Takes c (List.replicate z false ++ (List.replicate p true ++ bytes.flatMap wireByte)) (AfterByte bytes) := by
  obtain ⟨v, more, rfl⟩ := List.exists_cons_of_length_pos h₁
  refine (takes_zeros_idle c z hf).append fun m hm => ?_
  refine (takes_ones_idle hc (by omega) hm).append fun m ⟨hm, hcount⟩ => ?_
  have first : m.Takes c (wireByte v) (AfterByte [v]) :=
    (takes_frameBegin hc hm (by omega)).append fun _ hm => hm.takes_byteBits hc v
  exact first.append fun _ hm => hm.takes_wireBytes hc more (by simpa [Nat.add_comm] using h₆)

/-- The end bit after the last byte completes the packet (R72, R73, R76). -/
theorem Block.AfterByte.framerStep_endBit (c : Config) {bytes : List Byte} {b : Block} (h : b.AfterByte bytes) :
    b.framerStep c true = .ok b.complete := by
  by_cases hn : bytes.length = 6 <;> simp [Block.framerStep, h.fstate_eq, hn]

end Sys2Proof.Machine
end

section
/-! CERTIFICATES. The statements of 00_scope.md. -/

namespace Sys2Proof.Proofs

open Sys2Proof.Machine

/-- Settles O56: the framer takes every bit before the end bit, so the edges before the last two publish nothing, and the
end bit's second half publishes the bytes framed. -/
theorem wellFormedSignalIsDecoded : Obligations.WellFormedSignalIsDecoded := by
  intro s z p bytes widths rest hs ⟨ha, hf, hv, hk, _⟩ hp h₁ h₆ hc hi
  obtain ⟨-, fixed⟩ := (config_wf_iff s.cfg).1 hs.cfg_wf
  obtain ⟨m, taken, framed⟩ := Block.takes_wireFormat fixed z hp h₁ h₆ hf
  have bits : wireBits z p bytes =
      (List.replicate z false ++ (List.replicate p true ++ bytes.flatMap wireByte)) ++ [true] := by
    simp [wireBits, wireFrame]
  rw [bits] at hc
  obtain ⟨t, ⟨hrun, hobs⟩, hblock, hout, hin⟩ :=
    runsTo_tookBits_bit hs.cfg_wf ⟨ha, hv, hk⟩ hc hi taken (framed.framerStep_endBit s.cfg)
  have packet : m.complete.packet = bytes := framed.packet_eq
  refine ⟨t, hrun, hin, ?_⟩
  rw [hblock, hout, hobs]
  exact ⟨(if_pos rfl).trans (by rw [packet]), packet, framed.len_eq, rfl, rfl, rfl, rfl⟩

/-- Settles O4: the least width of each range is in it, and `max1 ≤ min0` keeps the ranges apart; a step asks for the
constraint first. -/
theorem thresholdConstraintHoldsOrRefused : Obligations.ThresholdConstraintHoldsOrRefused := by
  refine ⟨fun c ⟨_, hone, hgap, hzero, hmax⟩ => ⟨?_, ⟨c.min1, ?_⟩, ⟨c.min0, ?_⟩⟩, fun s hbad => ?_⟩
  · intro w ⟨⟨_, hw⟩, hw', _⟩
    omega
  · omega
  · omega
  · exact step_badConfig fun hw => hbad ((config_wf_iff s.cfg).1 hw).1

/-- Settles O3: the fields of the default configuration, computed. -/
theorem defaultThresholdsFromMicroseconds : Obligations.DefaultThresholdsFromMicroseconds := by
  have wf : Config.default.WellFormed := (config_wf_iff _).2 ⟨by decide, by decide⟩
  exact ⟨wf, rfl, rfl, rfl, rfl, rfl, rfl, rfl, rfl, rfl, rfl, rfl⟩

/-- Settles O5: the step equations of an event word that decodes and of no input. -/
theorem stepRunsTheDecodedEvent : Obligations.StepRunsTheDecodedEvent :=
  ⟨fun s _ rest _ hw hi hd => (step_event hw hi).trans (stepEvent_ok hd (s.withInputs rest)),
    fun _ hw hi => step_wait hw hi⟩

end Sys2Proof.Proofs
end

section
/-! SUPPORT. The invariants through each operation (spec 10_state.md R23). Each proof takes the clauses that the operation
does not touch from the invariants before it, and shows the others. -/

namespace Sys2Proof.Machine

variable {c : Config} {b b' : Block}

/-- `outcome` is in no invariant (R15). -/
theorem Block.Inv.emit (h : b.Inv c) (o : OutcomeCode) : (b.emit o).Inv c := { h with }

/-- After a timing reset to Idle, only what is said of `len`, `ready` and `armed` is left to show (R19). -/
theorem Block.inv_timingReset_idle (len_le : b.len.toNat ≤ c.maxLen) (ready_disarmed : b.ready = true → b.armed = false)
    (ready_len : b.ready = true → 1 ≤ b.len.toNat) : (b.timingReset .idle).Inv c where
  len_le := len_le
  latch_clear _ := rfl
  pcount_preamble h := absurd rfl h
  byte_dataBit h := h.elim (absurd rfl) (absurd rfl)
  done_disarmed := nofun
  ready_disarmed := ready_disarmed
  latch_armed := nofun
  ready_len := ready_len
  framed_len := nofun
  endBit_iff := by simp
  dataBit_room := nofun
  pcount_le := Nat.zero_le _

/-- The error entry keeps the invariants (R110). -/
theorem Block.Inv.frameError (h : b.Inv c) (cause : OutcomeCode) : (b.frameError cause).Inv c :=
  (inv_timingReset_idle h.len_le h.ready_disarmed h.ready_len).emit cause

/-- START establishes the invariants, whatever the block before it (R82). -/
theorem Block.start_inv (c : Config) (b : Block) : b.start.Inv c :=
  inv_timingReset_idle (b := { b with len := 0, ready := false, armed := true, outcome := .none }) (Nat.zero_le _) nofun
    nofun

/-- Power-on reset establishes the invariants, whatever the draw (R126). -/
theorem Block.powerOn_inv (c : Config) (draw : Vector Byte 6) : (Block.powerOn draw).Inv c :=
  inv_timingReset_idle (b := Block.powerOn draw) (Nat.zero_le _) nofun nofun

/-- CLEAR_READY keeps the invariants (R83). -/
theorem Block.Inv.clearReady (h : b.Inv c) : b.clearReady.Inv c :=
  { h with ready_disarmed := nofun, ready_len := nofun }

/-- Clearing the latch keeps the invariants (R58). -/
theorem Block.Inv.unlatch (h : b.Inv c) : { b with hp_valid := false, hp_class := false }.Inv c :=
  { h with latch_clear := fun _ => rfl, latch_armed := nofun }

/-- With room in the buffer `len` does not wrap (R13). -/
theorem toNat_len_succ {len : BitVec 3} (h : len.toNat < 6) : (len + 1).toNat = len.toNat + 1 := by bv_omega

/-- Every arm of the framer keeps the invariants of an armed block without a latched half (R62). -/
theorem FramerArm.inv {bit : Bool} (hc : c.FixedOk) (h : b.Inv c) (ha : b.armed = true) (hv : b.hp_valid = false)
    (arm : FramerArm c bit b b') : b'.Inv c := by
  obtain ⟨-, -, hmax, -, -, hpmax⟩ := hc
  have unlatched {P : Prop} (hv' : b.hp_valid = true) : P := nomatch hv.symm.trans hv'
  have unready {P : Prop} (hr : b.ready = true) : P := nomatch ha.symm.trans (h.ready_disarmed hr)
  cases arm
  case idleZero => exact h.emit .bit0
  case idleOne hf _ =>
    exact { h with
      pcount_preamble := fun _ => rfl
      byte_dataBit := fun hb => nomatch hf.symm.trans (h.byte_dataBit hb)
      done_disarmed := nofun
      latch_armed := unlatched
      framed_len := nofun
      endBit_iff := by simp
      dataBit_room := nofun
      pcount_le := by simp [hpmax] }
  case preambleOne hf _ =>
    exact { h with
      pcount_preamble := fun _ => hf
      pcount_le := by simp only [hpmax, BitVec.toNat_ofNat]; omega }
  case tooShort => exact h.frameError .errPreamble
  case frameBegin =>
    exact { h with
      len_le := Nat.zero_le _
      pcount_preamble := fun hp => absurd rfl hp
      byte_dataBit := fun _ => rfl
      done_disarmed := nofun
      latch_armed := unlatched
      ready_len := unready
      framed_len := nofun
      endBit_iff := by simp
      dataBit_room := fun _ => by simp [hmax]
      pcount_le := Nat.zero_le _ }
  case dataNext hf _ => exact { h with byte_dataBit := fun _ => hf }
  case byteDone hf _ hl =>
    have longer := toNat_len_succ hl
    by_cases last : b.len.toNat + 1 = c.maxLen
    all_goals
      simp only [last, ↓reduceIte]
      exact { h with
        len_le := by simp only [longer]; omega
        pcount_preamble := fun hp => nomatch hf.symm.trans (h.pcount_preamble hp)
        byte_dataBit := by simp
        done_disarmed := nofun
        latch_armed := unlatched
        ready_len := unready
        framed_len := fun _ => by simp only [longer]; omega
        endBit_iff := by simp only [longer]; simp [last]
        dataBit_room := nofun }
  case startZero hf _ =>
    have below : b.len.toNat ≠ c.maxLen := fun full => nomatch hf.symm.trans (h.endBit_iff.2 ⟨.inl hf, full⟩)
    exact { h with
      pcount_preamble := fun hp => nomatch hf.symm.trans (h.pcount_preamble hp)
      byte_dataBit := fun _ => rfl
      done_disarmed := nofun
      latch_armed := unlatched
      framed_len := nofun
      endBit_iff := by simp
      dataBit_room := fun _ => Nat.lt_of_le_of_ne h.len_le below }
  case complete hf _ =>
    exact { h with
      latch_clear := fun _ => rfl
      pcount_preamble := fun hp => absurd rfl hp
      byte_dataBit := fun hb => hb.elim (absurd rfl) (absurd rfl)
      done_disarmed := fun _ => rfl
      ready_disarmed := fun _ => rfl
      latch_armed := nofun
      ready_len := fun _ => h.framed_len hf
      framed_len := nofun
      endBit_iff := by simp [Block.complete]
      dataBit_room := nofun
      pcount_le := Nat.zero_le _ }
  case tooLong => exact h.frameError .errTooLong
  case inDone => exact h.frameError .errDone

/-- Every arm of EDGE keeps the invariants (R52, R56). -/
theorem EdgeArm.inv {w : Width} (hc : c.FixedOk) (h : b.Inv c) (arm : EdgeArm c w b b') : b'.Inv c := by
  cases arm with
  | ignored ha => exact h.emit .ignored
  | badWidth ha hw => exact h.frameError .errWidth
  | firstHalf ha cls hw hv =>
    have capturing : b.fstate ≠ .done := fun hf => nomatch ha.symm.trans (h.done_disarmed hf)
    exact { h with latch_clear := nofun, latch_armed := fun _ => ⟨ha, capturing⟩ }
  | resync ha cls hw hv hm hp => exact { h with latch_clear := fun hv' => nomatch hv.symm.trans hv' }
  | badPhase ha cls hw hv hm hp => exact h.frameError .errPhase
  | bit ha hw hv _ hb => exact hb.inv hc h.unlatch ha rfl

/-- Every event keeps the invariants. -/
theorem EventArm.inv {i : Instr} {o : Output} (hc : c.FixedOk) (h : b.Inv c) (arm : EventArm c b i b' o) :
    b'.Inv c := by
  cases arm with
  | edge w _ he => exact he.inv hc h
  | ovf => exact h.frameError .ovfReset
  | start d hd => exact b.start_inv c
  | clearReady d h0 h1 => exact h.clearReady
  | noEffect a d hd => exact h
  | read a => exact h

/-- Every step keeps the invariants. -/
theorem StepArm.inv {s t : State} (h : s.Inv) (arm : StepArm s t) : t.Inv := by
  obtain ⟨-, fixed⟩ := (config_wf_iff s.cfg).1 h.cfg_wf
  refine ⟨?_, ?_⟩
  · cases arm <;> exact h.cfg_wf
  · cases arm with
    | wait hi => exact h.block_inv
    | powerOn draw rest hi => exact Block.powerOn_inv s.cfg draw
    | event w rest i b o hi hd he => exact he.inv fixed h.block_inv

/-- The power-on states are safe (R126). -/
theorem State.powerOn_inv {c : Config} (hc : c.WellFormed) (inputs : List Input) : (State.powerOn c inputs).Inv :=
  ⟨hc, Block.powerOn_inv c c.bufInit⟩

end Sys2Proof.Machine
end

section
/-! SUPPORT. What an event runs, from the arm: the converses of the inversion lemmas (spec 00_scope.md R2, 42_packet_framer.md
R62, 41_bit_assembler.md R56, 40_edge_classifier.md R52). An arm and an execution are the same thing. -/

namespace Sys2Proof.Machine

/-- FramerStep does what its arm says (R62). -/
theorem FramerArm.framerStep_eq {c : Config} {bit : Bool} {b b' : Block} (arm : FramerArm c bit b b') :
    b.framerStep c bit = .ok b' := by
  cases arm with
  | idleZero hf hb => simp [Block.framerStep, hf, hb, Block.idleZero]
  | idleOne hf hb => simp [Block.framerStep, hf, hb, Block.idleOne, Block.emit]
  | preambleOne hf hb => simp [Block.framerStep, hf, hb, Block.preambleOne, Block.emit]
  | tooShort hf hb hp => simp [Block.framerStep, hf, hb, Block.preambleZero, hp]
  | frameBegin hf hb hp =>
    simp [Block.framerStep, hf, hb, Block.preambleZero, Nat.not_lt.2 hp, Block.frameBegin, Block.emit]
  | dataNext hf hn => simp [Block.framerStep, hf, Block.dataShift, hn, Block.dataNext, Block.emit]
  | byteDone hf hn hl =>
    simp [Block.framerStep, hf, Block.dataShift, Nat.not_lt.2 hn, Block.byteDone_completes c _ bit b hl]
  | startZero hf hb => simp [Block.framerStep, hf, hb, Block.startZero, Block.emit]
  | complete hf hb => obtain hf | hf := hf <;> simp [Block.framerStep, hf, hb]
  | tooLong hf hb => simp [Block.framerStep, hf, hb]
  | inDone hf => simp [Block.framerStep, hf]

/-- EDGE does what its arm says (R52). -/
theorem EdgeArm.edge_eq {c : Config} {w : Width} {b b' : Block} (arm : EdgeArm c w b b') : b.edge c w = .ok b' := by
  cases arm with
  | ignored ha => simp [Block.edge, ha]
  | badWidth ha hc => simp [Block.edge, ha, hc]
  | firstHalf ha cls hc hv => rw [Block.edge_of_halfClass ha hc, Block.assemble, if_pos hv]; rfl
  | resync ha cls hc hv hm hp =>
    rw [Block.edge_of_halfClass ha hc]
    simp [Block.assemble, hv, hm, Block.preamblePhase, hp, Block.resync, Block.emit]
  | badPhase ha cls hc hv hm hp =>
    rw [Block.edge_of_halfClass ha hc]
    simp [Block.assemble, hv, hm, Block.preamblePhase, hp]
  | bit ha hc hv _ hb =>
    rw [Block.edge_of_halfClass ha hc]
    simp [Block.assemble, hv, Block.completeBit, hb.framerStep_eq]

/-- A write to any address is MemWrite at that address (R40, R80, R81). -/
theorem exec_wrInstr (a : RegAddr) (d : Byte) (s : State) : exec (wrInstr a d) s = hostWrite a d s := by
  obtain ⟨n, hn⟩ := a
  interval_cases n <;> rfl

/-- A read of any address is MemRead at that address (R41, R93). -/
theorem exec_rdInstr (a : RegAddr) (s : State) : exec (rdInstr a) s = hostRead a s := by
  obtain ⟨n, hn⟩ := a
  interval_cases n <;> rfl

/-- START on the block (R81). -/
theorem Block.writeReg_start {d : Byte} (hd : d[0] = true) (b : Block) : b.writeReg 0x1#4 d = b.start := by
  simp [Block.writeReg, Block.control, commandOf, hd]

/-- CLEAR_READY on the block (R81). -/
theorem Block.writeReg_clearReady {d : Byte} (h0 : d[0] = false) (h1 : d[1] = true) (b : Block) :
    b.writeReg 0x1#4 d = b.clearReady := by
  simp [Block.writeReg, Block.control, commandOf, h0, h1]

/-- A write that is neither START nor CLEAR_READY has no effect on the block (R80, R81). -/
theorem Block.writeReg_noEffect {a : RegAddr} {d : Byte} (h : ¬(a = 0x1#4 ∧ (d[0] = true ∨ d[1] = true))) (b : Block) :
    b.writeReg a d = b := by
  obtain ⟨ha, h0, -⟩ | ⟨ha, -, h1, -⟩ | ⟨-, hw⟩ := Block.writeReg_cases a d b
  · exact absurd ⟨ha, .inl h0⟩ h
  · exact absurd ⟨ha, .inr h1⟩ h
  · exact hw

/-- An event does what its arm says. -/
theorem EventArm.exec_eq {i : Instr} {s : State} {b : Block} {o : Output} (arm : EventArm s.cfg s.block i b o) :
    exec i s = .next (s.settle b o) := by
  cases arm with
  | edge w _ he => rw [exec_edge, he.edge_eq]; rfl
  | ovf => rfl
  | start d hd => exact (exec_wrInstr 0x1#4 d s).trans (by rw [hostWrite, Block.writeReg_start hd])
  | clearReady d h0 h1 => exact (exec_wrInstr 0x1#4 d s).trans (by rw [hostWrite, Block.writeReg_clearReady h0 h1])
  | noEffect a d h => rw [exec_wrInstr, hostWrite, Block.writeReg_noEffect h]
  | read a => exact exec_rdInstr a s

/-- A step does what its arm says. -/
theorem StepArm.step_eq {s t : State} (hw : s.cfg.WellFormed) (arm : StepArm s t) : step s = .next t := by
  cases arm with
  | wait hi => exact step_wait hw hi
  | powerOn draw rest hi => exact step_powerOn hw hi
  | event w rest i b o hi hd he =>
    have runs := he.exec_eq (s := s.withInputs rest)
    exact (step_event hw hi).trans ((stepEvent_ok hd _).trans runs)

end Sys2Proof.Machine
end

section
/-! SUPPORT. Two machines that differ only in bytes no frame has written run alike (spec 10_state.md R14, R23.8;
93_implementation_defined.md rows 1 and 2). Each arm that one machine takes is open to the other, and leads to blocks that
agree again: only ByteDone writes the buffer, and it writes the same byte at index `len`. -/

namespace Sys2Proof.Machine

theorem Block.AgreeBelowLen.symm {a b : Block} (h : a.AgreeBelowLen b) : b.AgreeBelowLen a :=
  ⟨by rw [← h.rest], h.bytes.symm⟩

/-- Blocks agree when one is the other with another buffer, the bytes below `len` the same. -/
theorem Block.AgreeBelowLen.exists_buf {a b : Block} (h : a.AgreeBelowLen b) :
    ∃ v : Vector Byte 6, b = { a with buf := v } ∧ a.packet = { a with buf := v }.packet :=
  ⟨b.buf, h.rest.symm, h.rest.symm ▸ h.bytes⟩

/-- The XOR reads the packet's bytes only (R87). -/
theorem Block.AgreeBelowLen.pxor_eq {a b : Block} (h : a.AgreeBelowLen b) : a.pxor = b.pxor := by
  rw [Block.pxor, h.bytes, Block.pxor]

/-- Of the buffer STATUS shows only the checksum flag (R89, R94). -/
theorem Block.AgreeBelowLen.statusByte_eq (c : Config) {a b : Block} (h : a.AgreeBelowLen b) :
    a.statusByte c = b.statusByte c := by
  have xor := h.pxor_eq
  obtain ⟨v, rfl, -⟩ := h.exists_buf
  simp only [Block.statusByte, Block.valid, Block.csumOk, xor]
  rfl

variable {c : Config} {a a' b : Block}

/-- The framer takes the same arm on both blocks (R62). -/
theorem FramerArm.agree {bit : Bool} (arm : FramerArm c bit a a') (h : a.AgreeBelowLen b) (y : Vector Byte 6) :
    ∃ b', FramerArm { c with bufInit := y } bit b b' ∧ a'.AgreeBelowLen b' := by
  obtain ⟨v, rfl, hv⟩ := h.exists_buf
  cases arm with
  | idleZero hf hb => exact ⟨_, .idleZero hf hb, rfl, hv⟩
  | idleOne hf hb => exact ⟨_, .idleOne hf hb, rfl, hv⟩
  | preambleOne hf hb => exact ⟨_, .preambleOne hf hb, rfl, hv⟩
  | tooShort hf hb hp => exact ⟨_, .tooShort hf hb hp, rfl, hv⟩
  | frameBegin hf hb hp => exact ⟨_, .frameBegin hf hb hp, rfl, rfl⟩
  | dataNext hf hn => exact ⟨_, .dataNext hf hn, rfl, hv⟩
  | byteDone hf hn hl =>
    have longer := toNat_len_succ hl
    refine ⟨_, .byteDone (c := { c with bufInit := y }) (b := { a with buf := v }) hf hn hl, rfl, ?_⟩
    refine (Block.packet_append (b := a) hl rfl longer).trans ?_
    rw [hv]
    exact (Block.packet_append (b := { a with buf := v }) hl rfl longer).symm
  | startZero hf hb => exact ⟨_, .startZero hf hb, rfl, hv⟩
  | complete hf hb => exact ⟨_, .complete hf hb, rfl, hv⟩
  | tooLong hf hb => exact ⟨_, .tooLong hf hb, rfl, hv⟩
  | inDone hf => exact ⟨_, .inDone hf, rfl, hv⟩

/-- EDGE takes the same arm on both blocks (R52). -/
theorem EdgeArm.agree {w : Width} (arm : EdgeArm c w a a') (h : a.AgreeBelowLen b) (y : Vector Byte 6) :
    ∃ b', EdgeArm { c with bufInit := y } w b b' ∧ a'.AgreeBelowLen b' := by
  obtain ⟨v, rfl, hv⟩ := h.exists_buf
  cases arm with
  | ignored ha => exact ⟨_, .ignored ha, rfl, hv⟩
  | badWidth ha hc => exact ⟨_, .badWidth ha hc, rfl, hv⟩
  | firstHalf ha cls hc hl => exact ⟨_, .firstHalf (b := { a with buf := v }) ha cls hc hl, rfl, hv⟩
  | resync ha cls hc hl hm hp => exact ⟨_, .resync (b := { a with buf := v }) ha cls hc hl hm hp, rfl, hv⟩
  | badPhase ha cls hc hl hm hp => exact ⟨_, .badPhase ha cls hc hl hm hp, rfl, hv⟩
  | bit ha hc hl _ hb =>
    obtain ⟨b', hb', agree⟩ := hb.agree (b := { a with hp_valid := false, hp_class := false, buf := v }) ⟨rfl, hv⟩ y
    exact ⟨b', .bit (c := { c with bufInit := y }) (b := { a with buf := v }) ha hc hl b' hb', agree⟩

/-- An event takes the same arm on both blocks, and emits the same; only the byte that a read of the buffer returns may
differ (R102). -/
theorem EventArm.agree {i : Instr} {o : Output} (arm : EventArm c a i a' o) (h : a.AgreeBelowLen b)
    (y : Vector Byte 6) :
    ∃ b' o', EventArm { c with bufInit := y } b i b' o' ∧ a'.AgreeBelowLen b' ∧ o.emitted = o'.emitted := by
  cases arm with
  | edge w _ he =>
    obtain ⟨b', hb', agree⟩ := he.agree h y
    exact ⟨b', _, .edge w b' hb', agree, by rw [← agree.rest]⟩
  | ovf =>
    obtain ⟨v, rfl, hv⟩ := h.exists_buf
    exact ⟨_, _, .ovf, ⟨rfl, hv⟩, rfl⟩
  | start d hd =>
    obtain ⟨v, rfl, hv⟩ := h.exists_buf
    exact ⟨_, _, .start d hd, ⟨rfl, rfl⟩, rfl⟩
  | clearReady d h0 h1 =>
    obtain ⟨v, rfl, hv⟩ := h.exists_buf
    exact ⟨_, _, .clearReady d h0 h1, ⟨rfl, hv⟩, rfl⟩
  | noEffect r d hn => exact ⟨_, _, .noEffect r d hn, h, rfl⟩
  | read r => exact ⟨_, _, .read r, h, rfl⟩

/-- Two machines that differ only in `BUF_INIT` and in buffer bytes no frame has written. -/
structure State.Twin (s u : State) : Prop where
  cfg_eq : { s.cfg with bufInit := u.cfg.bufInit } = u.cfg
  agree : s.block.AgreeBelowLen u.block
  emitted_eq : s.out.emitted = u.out.emitted
  inputs_eq : s.inputs = u.inputs

variable {s t u : State}

theorem State.Twin.symm (h : s.Twin u) : u.Twin s :=
  ⟨by rw [← h.cfg_eq], h.agree.symm, h.emitted_eq.symm, h.inputs_eq.symm⟩

theorem State.Twin.wellFormed (h : s.Twin u) (hw : s.cfg.WellFormed) : u.cfg.WellFormed := by
  rw [← h.cfg_eq]
  exact hw

/-- What the last step published agrees (R77). -/
theorem State.Twin.published_eq (h : s.Twin u) : s.published = u.published := by
  rw [State.published, h.emitted_eq, h.agree.bytes, State.published]

/-- A step takes the same arm on both machines. -/
theorem StepArm.twin (h : s.Twin u) (arm : StepArm s t) : ∃ v, StepArm u v ∧ t.Twin v := by
  obtain ⟨hcfg, agree, hout, hin⟩ := h
  cases arm with
  | wait hi => exact ⟨_, .wait (hin ▸ hi), hcfg, agree, rfl, hin⟩
  | powerOn draw rest hi => exact ⟨_, .powerOn draw rest (hin ▸ hi), hcfg, ⟨rfl, rfl⟩, rfl, rfl⟩
  | event w rest i b o hi hd he =>
    obtain ⟨b', o', he', agree', hout'⟩ := he.agree agree u.cfg.bufInit
    exact ⟨_, .event w rest i b' o' (hin ▸ hi) hd (hcfg ▸ he'), hcfg, agree', hout', rfl⟩

/-- A step of one machine is answered by a step of the other. -/
theorem State.Twin.step (h : s.Twin u) (hs : step s = .next t) : ∃ v, step u = .next v ∧ t.Twin v := by
  obtain ⟨hw, arm⟩ := step_next hs
  obtain ⟨v, arm', twin⟩ := arm.twin h
  exact ⟨v, arm'.step_eq (h.wellFormed hw), twin⟩

/-- A run of one machine is answered by a run of the other. -/
theorem State.Twin.run {k : Nat} (h : s.Twin u) (hr : run k s = .next t) : ∃ v, run k u = .next v ∧ t.Twin v := by
  induction k generalizing s u with
  | zero =>
    obtain rfl : s = t := Host.Outcome.next.inj hr
    exact ⟨u, rfl, h⟩
  | succ k ih =>
    obtain ⟨s', _, hs, tail, -⟩ := State.RunsTo.uncons ⟨hr, rfl⟩
    obtain ⟨u', hu, h'⟩ := h.step hs
    obtain ⟨v, hv, twin⟩ := ih h' tail.run_eq
    exact ⟨v, by rw [Machine.run, hu]; exact hv, twin⟩

/-- The packets of a run whose first step answers a next state. -/
theorem observe_next {k : Nat} (hs : step s = .next t) : observe (k + 1) s = t.published.toList ++ observe k t := by
  rw [observe, hs]
  dsimp only
  cases t.published <;> rfl

/-- A run whose first step stops publishes nothing. -/
theorem observe_stop {k : Nat} (hs : ∀ t, step s ≠ .next t) : observe (k + 1) s = [] := by
  rw [observe]
  split
  · next t ht => exact absurd ht (hs t)
  · rfl
  · rfl

/-- The two machines publish the same packets, and stop alike. -/
theorem State.Twin.observe_eq (k : Nat) (h : s.Twin u) : observe k s = observe k u := by
  induction k generalizing s u with
  | zero => rfl
  | succ k ih =>
    by_cases next : ∃ t, Machine.step s = .next t
    · obtain ⟨t, hs⟩ := next
      obtain ⟨v, hu, twin⟩ := h.step hs
      rw [observe_next hs, observe_next hu, twin.published_eq, ih twin]
    · have stops : ∀ v, Machine.step u ≠ .next v := fun v hu =>
        next ((h.symm.step hu).imp fun _ ht => ht.1)
      rw [observe_stop (not_exists.1 next), observe_stop stops]

/-- Power-on with two draws of the buffer (R126). -/
theorem State.twin_powerOn (c : Config) (x y : Vector Byte 6) (inputs : List Input) :
    (State.powerOn { c with bufInit := x } inputs).Twin (State.powerOn { c with bufInit := y } inputs) :=
  ⟨rfl, ⟨rfl, rfl⟩, rfl, rfl⟩

end Sys2Proof.Machine
end

section
/-! SUPPORT. What an event leaves unchanged: the frame of EDGE (spec 10_state.md R13, R14, R16, R17), and `outcome`, which no
operation reads (R15). -/

namespace Sys2Proof.Machine

variable {c : Config} {b b' : Block}

/-- An EDGE that answers a next state took an arm (R52). -/
theorem exec_edge_next {w : Width} {s t : State} (h : exec (.edge w) s = .next t) :
    ∃ b, EdgeArm s.cfg w s.block b ∧ t = s.finishEvent b := by
  rw [exec_edge] at h
  split at h
  · next b hb =>
    cases h
    exact ⟨b, Block.edge_ok hb, rfl⟩
  · cases h

/-- A byte completes at the eighth data bit: seven bits are in (R69, R70). -/
theorem bitcnt_eq_seven {n : BitVec 3} (hc : c.FixedOk) (hn : c.byteBits ≤ n.toNat + 1) : n = 7 := by
  obtain ⟨-, -, -, hbits, -⟩ := hc
  rw [hbits] at hn
  bv_omega

/-- The framer writes the buffer only when a byte completes, and only at index `len` (R14, R70). -/
theorem FramerArm.buf_frame {bit : Bool} (hc : c.FixedOk) (arm : FramerArm c bit b b') (j : Nat) (hj : j < 6) :
    b'.buf[j] = b.buf[j] ∨
      (j = b.len.toNat ∧ b.fstate = .dataBit ∧ b.bitcnt = 7 ∧ b'.len = b.len + 1) := by
  cases arm
  case byteDone hf hn hl =>
    by_cases at_len : j = b.len.toNat
    · exact .inr ⟨at_len, hf, bitcnt_eq_seven hc hn, rfl⟩
    · exact .inl (Vector.getElem_set_ne hl hj (Ne.symm at_len))
  all_goals exact .inl rfl

/-- The framer writes `len` only when a byte completes and when a frame begins (R13, R67, R70). -/
theorem FramerArm.len_frame {bit : Bool} (hc : c.FixedOk) (arm : FramerArm c bit b b') :
    b'.len = b.len ∨ (b.fstate = .dataBit ∧ b.bitcnt = 7 ∧ b'.len = b.len + 1) ∨
      (b.fstate = .preamble ∧ b'.fstate = .dataBit ∧ b'.len = 0) := by
  cases arm
  case byteDone hf hn _ => exact .inr (.inl ⟨hf, bitcnt_eq_seven hc hn, rfl⟩)
  case frameBegin hf _ _ => exact .inr (.inr ⟨hf, rfl, rfl⟩)
  all_goals exact .inl rfl

/-- The framer writes `ready` and `armed` only when it publishes (R16, R17, R76). -/
theorem FramerArm.publish_frame {bit : Bool} (arm : FramerArm c bit b b') :
    (b'.ready = b.ready ∧ b'.armed = b.armed) ∨ (b'.outcome = .packet ∧ b'.ready = true ∧ b'.armed = false) := by
  cases arm
  case complete => exact .inr ⟨rfl, rfl, rfl⟩
  all_goals exact .inl ⟨rfl, rfl⟩

/-- Outside the framer EDGE writes none of `buf`, `len`, `ready` and `armed`; the framer reads them as EDGE found them. -/
theorem EdgeArm.framer_or_kept {w : Width} (arm : EdgeArm c w b b') :
    FramerArm c b.hp_class { b with hp_valid := false, hp_class := false } b' ∨
      (b'.buf = b.buf ∧ b'.len = b.len ∧ b'.ready = b.ready ∧ b'.armed = b.armed) := by
  cases arm
  case bit hb => exact .inl hb
  all_goals exact .inr ⟨rfl, rfl, rfl, rfl⟩

/-- EDGE does not read `outcome`, and overwrites it (R15). -/
theorem Block.edge_emit (c : Config) (w : Width) (o : OutcomeCode) (b : Block) : (b.emit o).edge c w = b.edge c w := by
  have completion (cls : Bool) : (b.emit o).completeBit c cls = b.completeBit c cls :=
    framerStep_emit c cls o { b with hp_valid := false, hp_class := false }
  have assembly (cls : Bool) : (b.emit o).assemble c cls = b.assemble c cls := by
    rw [Block.assemble, completion]
    rfl
  rw [Block.edge, assembly, assembly]
  rfl

/-- An EDGE runs alike whatever code is latched (R15). -/
theorem exec_edge_outcome (w : Width) (s : State) (o : OutcomeCode) :
    exec (.edge w) { s with block := { s.block with outcome := o } } = exec (.edge w) s := by
  have same : { s.block with outcome := o }.edge s.cfg w = s.block.edge s.cfg w := Block.edge_emit s.cfg w o s.block
  rw [exec_edge, exec_edge, same]
  rfl

/-- A host write does not read `outcome` (R15). -/
theorem Block.writeReg_emit (a : RegAddr) (d : Byte) (o : OutcomeCode) (b : Block) :
    ((b.emit o).writeReg a d).emit .none = (b.writeReg a d).emit .none := by
  obtain ⟨rfl, hd, hw⟩ | ⟨rfl, h0, h1, hw⟩ | ⟨hn, hw⟩ := Block.writeReg_cases a d b
  · rw [hw, Block.writeReg_start hd]; rfl
  · rw [hw, Block.writeReg_clearReady h0 h1]; rfl
  · rw [hw, Block.writeReg_noEffect hn]; rfl

/-- Only the OUTCOME register shows `outcome` (R15, R103). -/
theorem Block.readReg_emit (c : Config) {a : RegAddr} (ha : a ≠ 0xE#4) (o : OutcomeCode) (b : Block) :
    (b.emit o).readReg c a = b.readReg c a := by
  unfold Block.readReg
  split
  case h_15 => exact absurd rfl ha
  all_goals rfl

end Sys2Proof.Machine
end

section
/-! CERTIFICATES. The statements of 10_state.md. -/

namespace Sys2Proof.Proofs

open Sys2Proof.Machine

/-- Settles O50: each arm of a step keeps the invariants. -/
theorem everyStepKeepsTheInvariants : Obligations.EveryStepKeepsTheInvariants := by
  intro s t hs hst
  obtain ⟨-, arm⟩ := step_next hst
  exact arm.inv hs

/-- Settles O54: two power-on states that differ in `BUF_INIT` are twins, and every step keeps twins. -/
theorem bufferInitialValueIsInvisible : Obligations.BufferInitialValueIsInvisible := by
  intro c x y inputs k _
  have twin := State.twin_powerOn c x y inputs
  refine ⟨twin.observe_eq k, fun t ht => ?_⟩
  obtain ⟨u, hu, twin⟩ := twin.run ht
  exact ⟨u, hu, twin.agree, twin.agree.statusByte_eq c, twin.agree.pxor_eq⟩

/-- Settles O31: outside the framer EDGE keeps all four elements, and the framer's arms say the rest. -/
theorem edgeFrame : Obligations.EdgeFrame := by
  intro s t w hw h
  obtain ⟨-, fixed⟩ := (config_wf_iff s.cfg).1 hw
  obtain ⟨b, arm, rfl⟩ := exec_edge_next h
  refine ⟨rfl, rfl, rfl, ?_⟩
  obtain hb | ⟨hbuf, hlen, hready, harmed⟩ := arm.framer_or_kept
  · have buf := hb.buf_frame fixed
    have len := hb.len_frame fixed
    have publish := hb.publish_frame
    exact ⟨buf, len, publish.imp_right fun ⟨ho, kept⟩ => ⟨congrArg some ho, kept⟩⟩
  · exact ⟨fun j hj => .inl (by rw [State.finishEvent_block, hbuf]), .inl hlen, .inl ⟨hready, harmed⟩⟩

/-- Settles O46: of the arms of an event, EDGE and OVF are not the host's, and the host's other than START and CLEAR_READY
keep the block. -/
theorem hostWritesOnlyThroughControl : Obligations.HostWritesOnlyThroughControl := by
  intro i s t h host
  obtain ⟨b, o, arm, rfl⟩ := exec_next h
  cases arm with
  | edge w _ he => cases host
  | ovf => cases host
  | start d hd => exact ⟨rfl, fun hs => nomatch hd.symm.trans hs⟩
  | clearReady d h0 h1 =>
    exact ⟨rfl, fun _ => ⟨rfl, rfl, rfl, rfl, rfl, rfl, rfl, rfl, rfl, .inr ⟨⟨d, rfl, h1⟩, rfl⟩⟩⟩
  | noEffect a d hn => exact ⟨rfl, fun _ => ⟨rfl, rfl, rfl, rfl, rfl, rfl, rfl, rfl, rfl, .inl rfl⟩⟩
  | read a => exact ⟨rfl, fun _ => ⟨rfl, rfl, rfl, rfl, rfl, rfl, rfl, rfl, rfl, .inl rfl⟩⟩

/-- Settles O47: EDGE and OVF overwrite `outcome` and do not read it, a host write leaves it alone or overwrites it, and of
the reads only RD OUTCOME shows it. -/
theorem outcomeAffectsNothingElse : Obligations.OutcomeAffectsNothingElse := by
  intro i s o
  obtain ⟨w, rfl⟩ | ⟨rfl, -⟩ | ⟨a, d, rfl, -⟩ | ⟨a, rfl, -⟩ := exec_cases i s
  · rw [exec_edge_outcome w s o, exec_edge]
    cases s.block.edge s.cfg w with
    | ok b => exact ⟨rfl, rfl, rfl, rfl, fun _ => rfl⟩
    | error f => rfl
  · exact ⟨rfl, rfl, rfl, rfl, fun _ => rfl⟩
  · rw [exec_wrInstr, exec_wrInstr]
    exact ⟨(Block.writeReg_emit a d o s.block).symm, rfl, rfl, rfl, fun _ => rfl⟩
  · rw [exec_rdInstr, exec_rdInstr]
    refine ⟨rfl, rfl, rfl, rfl, fun other => ?_⟩
    have ha : a ≠ 0xE#4 := fun ha => other (by rw [ha]; rfl)
    exact congrArg some (Block.readReg_emit s.cfg ha o s.block).symm

/-- Settles O49: power-on reset establishes the invariants, and the default configuration is well formed. -/
theorem powerOnStatesAreSafe : Obligations.PowerOnStatesAreSafe :=
  ⟨fun _ inputs hc => State.powerOn_inv hc inputs,
    State.powerOn_inv defaultThresholdsFromMicroseconds.1 []⟩

/-- Settles O51: the invariants hold at power-on and every step keeps them. -/
theorem reachableStatesAreSafe : Obligations.ReachableStatesAreSafe := by
  intro s hs
  induction hs with
  | powerOn c inputs hc => exact State.powerOn_inv hc inputs
  | step s t _ hst ih => exact everyStepKeepsTheInvariants s t ih hst

end Sys2Proof.Proofs
end

section
/-! SUPPORT. A disarmed block keeps its packet (spec 20_memory.md R33): only the framer and START write `len`, only the framer
writes the buffer (10_state.md R13, R14), and the capture gate keeps EDGE from the framer (40_edge_classifier.md R52). -/

namespace Sys2Proof.Machine

variable {c : Config} {b b' : Block}

/-- The packet is read off `len` and the buffer (R77). -/
theorem Block.packet_congr (hlen : b'.len = b.len) (hbuf : b'.buf = b.buf) : b'.packet = b.packet := by
  rw [Block.packet, Block.packet, hlen, hbuf]

/-- A published packet has capture disabled, by the invariant `ready_disarmed` (R23.6). -/
theorem Block.Inv.disarmed_of_ready_or (h : b.Inv c) (hr : b.ready = true ∨ b.armed = false) : b.armed = false :=
  hr.elim h.ready_disarmed id

/-- With capture disabled an EDGE is ignored (R52). -/
theorem EdgeArm.eq_ignored {w : Width} (arm : EdgeArm c w b b') (ha : b.armed = false) : b' = b.emit .ignored := by
  cases arm with
  | ignored _ => rfl
  | badWidth armed | firstHalf armed | resync armed | badPhase armed | bit armed => exact nomatch ha.symm.trans armed

/-- With capture disabled no event but START writes `len`, the buffer or `armed` (R33, R86). -/
theorem EventArm.packet_frame {i : Instr} {o : Output} (arm : EventArm c b i b' o) (ha : b.armed = false)
    (notStart : ∀ d, i = .wrControl d → d[0] = false) : b'.len = b.len ∧ b'.buf = b.buf ∧ b'.armed = b.armed := by
  cases arm with
  | edge w _ he => rw [he.eq_ignored ha]; exact ⟨rfl, rfl, rfl⟩
  | ovf => exact ⟨rfl, rfl, rfl⟩
  | start d hd => exact nomatch hd.symm.trans (notStart d rfl)
  | clearReady d h0 h1 => exact ⟨rfl, rfl, rfl⟩
  | noEffect a d hn => exact ⟨rfl, rfl, rfl⟩
  | read a => exact ⟨rfl, rfl, rfl⟩

/-- With capture disabled no step but START and power-on reset writes `len`, the buffer or `armed` (R33). -/
theorem StepArm.packet_frame {s t : State} (arm : StepArm s t) (ha : s.block.armed = false)
    (notReset : ∀ draw rest, s.inputs ≠ .powerOn draw :: rest)
    (notStart : ∀ w rest d, s.inputs = .event w :: rest → decode w = .ok (.wrControl d) → d[0] = false) :
    t.block.len = s.block.len ∧ t.block.buf = s.block.buf ∧ t.block.armed = s.block.armed := by
  cases arm with
  | wait hi => exact ⟨rfl, rfl, rfl⟩
  | powerOn draw rest hi => exact absurd hi (notReset draw rest)
  | event w rest i b o hi hd he => exact he.packet_frame ha fun d hc => notStart w rest d hi (hc ▸ hd)

end Sys2Proof.Machine
end

section
/-! CERTIFICATES. The statements of 20_memory.md. -/

namespace Sys2Proof.Proofs

open Sys2Proof.Machine

/-- Settles O44: a safe state with a published packet is disarmed, and every arm of a step that is neither START nor power-on
reset keeps `len`, the buffer and `armed` of a disarmed block. -/
theorem publishedPacketIsStable : Obligations.PublishedPacketIsStable := by
  intro s t hs hst hr notReset notStart
  obtain ⟨-, arm⟩ := step_next hst
  have disarmed := hs.block_inv.disarmed_of_ready_or hr
  obtain ⟨hlen, hbuf, harmed⟩ := arm.packet_frame disarmed notReset notStart
  exact ⟨hlen, hbuf, Block.packet_congr hlen hbuf, harmed.trans disarmed⟩

end Sys2Proof.Proofs
end

section
/-! SUPPORT. The decoder on each format and the encoder on each address (spec 30_encoding.md R37 to R45): which words are
rejected, and that the encoder's words are exactly the well-formed ones. -/

namespace Sys2Proof

open Sys2Proof.Machine

/-- A host write's word is of format HW at its address (R40, R45). -/
@[simp] theorem encode_wrInstr (a : RegAddr) (d : Byte) : encode (wrInstr a d) = encodeHW a d := by
  obtain ⟨n, hn⟩ := a
  interval_cases n <;> rfl

/-- A host read's word is of format HR at its address (R41, R45). -/
@[simp] theorem encode_rdInstr (a : RegAddr) : encode (rdInstr a) = encodeHR a := by
  obtain ⟨n, hn⟩ := a
  interval_cases n <;> rfl

/-- An event is EDGE, OVF, a write to some address or a read of some address (R45). -/
theorem instr_cases (i : Instr) :
    (∃ v, i = .edge v) ∨ i = .ovf ∨ (∃ a d, i = wrInstr a d) ∨ ∃ a, i = rdInstr a := by
  obtain hi | ⟨hi, -⟩ | ⟨a, d, hi, -⟩ | ⟨a, hi, -⟩ := exec_cases i State.reset
  · exact .inl hi
  · exact .inr (.inl hi)
  · exact .inr (.inr (.inl ⟨a, d, hi⟩))
  · exact .inr (.inr (.inr ⟨a, hi⟩))

/-- The word written for OVF decodes to it (R39). -/
theorem decode_encodeO : decode encodeO = .ok .ovf := rfl

/-- The word written for a host write decodes to it (R40). -/
theorem decode_encodeHW (a : RegAddr) (d : Byte) : decode (encodeHW a d) = .ok (wrInstr a d) := by
  simp [decode, decodeWr]

/-- The word written for a host read decodes to it (R41). -/
theorem decode_encodeHR (a : RegAddr) : decode (encodeHR a) = .ok (rdInstr a) := by
  simp [decode, decodeRd]

/-- The word the encoder writes for an event decodes to it. -/
theorem decode_encode (i : Instr) : decode (encode i) = .ok i := by
  obtain ⟨v, rfl⟩ | rfl | ⟨a, d, rfl⟩ | ⟨a, rfl⟩ := instr_cases i
  · exact decode_encodeE v
  · exact decode_encodeO
  · rw [encode_wrInstr, decode_encodeHW]
  · rw [encode_rdInstr, decode_encodeHR]

/-- Two events have two words. -/
theorem encode_injective : Function.Injective encode := fun i j h =>
  Except.ok.inj ((decode_encode i).symm.trans (h ▸ decode_encode j))

variable {w : EventWord}

/-- A word of a kind that is not defined is rejected as a reserved kind (R42). -/
theorem decode_reservedKind (h : ¬EventWord.KindDefined w) : decode w = .error .reservedKind := by
  obtain ⟨hE, hO, hW, hR⟩ : _ ∧ _ ∧ _ ∧ _ := by simpa only [EventWord.KindDefined, not_or] using h
  rw [decode, if_neg hE, if_neg hO, if_neg hW, if_neg hR]

/-- A word of a defined kind with a nonzero reserved field is rejected for its reserved bits (R43). -/
theorem decode_reservedBits (hk : EventWord.KindDefined w) (hz : ¬EventWord.ReservedZero w) :
    decode w = .error .reservedBits := by
  obtain h | h | h | h := hk
  · have field : w.extractLsb' 16 12 ≠ 0#12 := by simpa [EventWord.ReservedZero, h] using hz
    simp [decode, decodeEdge, h, field]
  · have field : w.extractLsb' 0 28 ≠ 0#28 := by simpa [EventWord.ReservedZero, h] using hz
    simp [decode, decodeOvf, h, field]
  · have field : w.extractLsb' 12 16 ≠ 0#16 := by simpa [EventWord.ReservedZero, h] using hz
    simp [decode, decodeWr, h, field]
  · have fields : ¬(w.extractLsb' 12 16 = 0#16 ∧ w.extractLsb' 0 8 = 0#8) := by
      simpa [EventWord.ReservedZero, h] using hz
    simp [decode, decodeRd, h, fields]

/-- Only a well-formed word decodes (R42, R43). -/
theorem wellFormed_of_decode {i : Instr} (h : decode w = .ok i) : w.WellFormed := by
  by_contra hw
  by_cases hk : EventWord.KindDefined w
  · exact nomatch h.symm.trans (decode_reservedBits hk fun hz => hw ⟨hk, hz⟩)
  · exact nomatch h.symm.trans (decode_reservedKind hk)

/-! A word is its fields, from the kind down: one lemma per format. -/

theorem append_fieldsO (w : EventWord) : EventWord.kind w ++ w.extractLsb' 0 28 = w :=
  (BitVec.extractLsb'_append_extractLsb'_eq_extractLsb' (start₂ := 28) (start₁ := 0) (by rfl)).trans
    BitVec.extractLsb'_eq_self

theorem append_fieldsE (w : EventWord) : EventWord.kind w ++ w.extractLsb' 16 12 ++ w.extractLsb' 0 16 = w := by
  rw [EventWord.kind, BitVec.extractLsb'_append_extractLsb'_eq_extractLsb' (start₂ := 28) (start₁ := 16) (by rfl),
    BitVec.extractLsb'_append_extractLsb'_eq_extractLsb' (start₂ := 16) (start₁ := 0) (by rfl)]
  exact BitVec.extractLsb'_eq_self

/-- Formats HW and HR have the same fields. -/
theorem append_fieldsH (w : EventWord) :
    EventWord.kind w ++ w.extractLsb' 12 16 ++ w.extractLsb' 8 4 ++ w.extractLsb' 0 8 = w := by
  rw [EventWord.kind, BitVec.extractLsb'_append_extractLsb'_eq_extractLsb' (start₂ := 28) (start₁ := 12) (by rfl),
    BitVec.extractLsb'_append_extractLsb'_eq_extractLsb' (start₂ := 12) (start₁ := 8) (by rfl),
    BitVec.extractLsb'_append_extractLsb'_eq_extractLsb' (start₂ := 8) (start₁ := 0) (by rfl)]
  exact BitVec.extractLsb'_eq_self

/-- A well-formed word is the encoder's word for the event that its kind and its fields give (R38 to R41). -/
theorem exists_encode_of_wellFormed (h : w.WellFormed) : ∃ i, encode i = w := by
  obtain ⟨hk | hk | hk | hk, hE, hO, hW, hR⟩ := h
  · have fields := append_fieldsE w
    rw [hk, hE hk] at fields
    exact ⟨.edge _, fields⟩
  · have fields := append_fieldsO w
    rw [hk, hO hk] at fields
    exact ⟨.ovf, fields⟩
  · have fields := append_fieldsH w
    rw [hk, hW hk] at fields
    exact ⟨_, (encode_wrInstr _ _).trans fields⟩
  · have fields := append_fieldsH w
    obtain ⟨high, low⟩ := hR hk
    rw [hk, high, low] at fields
    exact ⟨_, (encode_rdInstr _).trans fields⟩

/-- A word decodes to an event exactly when it is the event's word. -/
theorem decode_eq_ok_iff {i : Instr} : decode w = .ok i ↔ encode i = w := by
  refine ⟨fun h => ?_, fun h => h ▸ decode_encode i⟩
  obtain ⟨j, rfl⟩ := exists_encode_of_wellFormed (wellFormed_of_decode h)
  exact congrArg encode (Except.ok.inj (h.symm.trans (decode_encode j)))

/-- The words that decode are the well-formed ones (R42, R43). -/
theorem exists_decode_iff_wellFormed : (∃ i, decode w = .ok i) ↔ w.WellFormed := by
  refine ⟨fun ⟨_, h⟩ => wellFormed_of_decode h, fun h => ?_⟩
  obtain ⟨i, hi⟩ := exists_encode_of_wellFormed h
  exact ⟨i, decode_eq_ok_iff.2 hi⟩

end Sys2Proof
end

section
/-! SUPPORT. The opcode table (spec 30_encoding.md R45, R50): its rows of formats HW and HR are the rows of the 16 addresses,
and the words of a row are the encoder's words for the events of its mnemonic. -/

namespace Sys2Proof

/-- A write's mnemonic depends on its address only. -/
theorem mnemonic_wrInstr (a : RegAddr) (d : Byte) : mnemonic (wrInstr a d) = mnemonic (wrInstr a 0) := by
  obtain ⟨n, hn⟩ := a
  interval_cases n <;> rfl

/-- The row of the writes to an address: its words differ in the data byte only (R40). -/
def writeRow (a : RegAddr) : OpRow := ⟨mnemonic (wrInstr a 0), encodeHW a 0, 0xFFFFFF00⟩

/-- The row of the read of an address: it has one word (R41). -/
def readRow (a : RegAddr) : OpRow := ⟨mnemonic (rdInstr a), encodeHR a, 0xFFFFFFFF⟩

theorem writeRow_mem : ∀ a, writeRow a ∈ writeRows := by decide

theorem readRow_mem : ∀ a, readRow a ∈ readRows := by decide

theorem eq_writeRow_of_mem : ∀ r ∈ writeRows, ∃ a, r = writeRow a := by decide

theorem eq_readRow_of_mem : ∀ r ∈ readRows, ∃ a, r = readRow a := by decide

/-- No two rows bear one mnemonic. -/
theorem opRow_eq_of_mnemonic {r q : OpRow} (hr : r ∈ opcodeTable) (hq : q ∈ opcodeTable)
    (h : r.mnemonic = q.mnemonic) : r = q :=
  List.inj_on_of_nodup_map (f := OpRow.mnemonic) (by decide) hr hq h

/-- Every event's word is in the row that bears the event's mnemonic. -/
theorem encode_matches_row (i : Instr) : ∃ r ∈ opcodeTable, r.mnemonic = mnemonic i ∧ r.Matches (encode i) := by
  obtain ⟨v, rfl⟩ | rfl | ⟨a, d, rfl⟩ | ⟨a, rfl⟩ := instr_cases i
  · exact Laws.EncodeInRow.edge v
  · exact Laws.EncodeInRow.ovf
  · rw [encode_wrInstr, mnemonic_wrInstr]
    exact Laws.EncodeInRow.ofWrite a d _ (writeRow_mem a)
  · rw [encode_rdInstr]
    exact Laws.EncodeInRow.ofRead a _ (readRow_mem a)

/-- A word of a row is the encoder's word for an event of the row's mnemonic. -/
theorem exists_encode_of_matches {w : EventWord} {r : OpRow} (hr : r ∈ opcodeTable) (h : r.Matches w) :
    ∃ i, encode i = w ∧ mnemonic i = r.mnemonic := by
  have oneWord {p : EventWord} (hp : w &&& 0xFFFFFFFF#32 = p) : p = w := hp.symm.trans BitVec.and_allOnes
  obtain hr | hr | hr : r ∈ eventRows ∨ r ∈ writeRows ∨ r ∈ readRows := by simpa [opcodeTable] using hr
  · obtain rfl | rfl : r = ⟨"EDGE", 0x10000000, 0xFFFF0000⟩ ∨ r = ⟨"OVF", 0x20000000, 0xFFFFFFFF⟩ := by
      simpa [eventRows] using hr
    · exact ⟨.edge _, (eq_encodeE h).symm, rfl⟩
    · exact ⟨.ovf, oneWord h, rfl⟩
  · obtain ⟨a, rfl⟩ := eq_writeRow_of_mem r hr
    exact ⟨_, (encode_wrInstr a _).trans (eq_encodeHW h).symm, mnemonic_wrInstr a _⟩
  · obtain ⟨a, rfl⟩ := eq_readRow_of_mem r hr
    exact ⟨rdInstr a, (encode_rdInstr a).trans (oneWord h), rfl⟩

end Sys2Proof
end

section
/-! SUPPORT. The trace assembler (spec 30_encoding.md R47 to R49): the formulas of R48 are the encoder's words, and every
statement that spells bits writes the EDGE words of their half-bits. -/

namespace Sys2Proof.Machine

/-- The formula of `edge W` is the word of format E (R38, R48). -/
theorem ofNat_edge {w : Nat} (h : w ≤ 0xFFFF) : BitVec.ofNat 32 (0x10000000 + w) = encodeE (BitVec.ofNat 16 w) := by
  apply BitVec.eq_of_toNat_eq
  rw [toNat_encodeE, BitVec.toNat_ofNat, BitVec.toNat_ofNat]
  omega

/-- The formula of `wr R, D` is the word of format HW (R40, R48). -/
theorem ofNat_write {a d : Nat} (ha : a ≤ 0xF) (hd : d ≤ 0xFF) :
    BitVec.ofNat 32 (0x30000000 + a * 2 ^ 8 + d) = encodeHW (BitVec.ofNat 4 a) (BitVec.ofNat 8 d) := by
  apply BitVec.eq_of_toNat_eq
  rw [toNat_encodeHW, BitVec.toNat_ofNat, BitVec.toNat_ofNat, BitVec.toNat_ofNat]
  omega

/-- The formula of `rd R` is the word of format HR (R41, R48). -/
theorem ofNat_read {a : Nat} (ha : a ≤ 0xF) :
    BitVec.ofNat 32 (0x40000000 + a * 2 ^ 8) = encodeHR (BitVec.ofNat 4 a) := by
  apply BitVec.eq_of_toNat_eq
  rw [toNat_encodeHR, BitVec.toNat_ofNat, BitVec.toNat_ofNat]
  omega

/-- The nominal width of a half-bit (R5, R49). -/
def nominalWidth (bit : Bool) : Width := if bit then 116 else 200

/-- The nominal widths of the half-bits of bits, two for each (R46, R49). -/
def nominalWidths (bits : List Bool) : List Width := bits.flatMap fun bit => [nominalWidth bit, nominalWidth bit]

theorem length_nominalWidths (bits : List Bool) : (nominalWidths bits).length = 2 * bits.length := by
  simp [nominalWidths, List.length_flatMap, Nat.mul_comm]

/-- The statements of bits, one after the other, write the EDGE words of their half-bits (R48, R49). -/
theorem baseWords_bitStmts (bits : List Bool) :
    baseWords (bits.flatMap bitStmts) = some ((nominalWidths bits).map encodeE) := by
  induction bits with
  | nil => rfl
  | cons bit bits ih =>
    have half : (Base.edge (if bit then 116 else 200)).word = some (encodeE (nominalWidth bit)) := by
      cases bit <;> rfl
    rw [List.flatMap_cons, bitStmts, List.cons_append, List.cons_append, List.nil_append, baseWords, baseWords, half, ih]
    rfl

/-- A statement that expands to bits writes the EDGE words of their half-bits. -/
theorem Stmt.words_of_expand {s : Stmt} {bits : List Bool} (h : s.expand = some (bits.flatMap bitStmts)) :
    s.words = some ((nominalWidths bits).map encodeE) := by
  rw [Stmt.words, h]
  exact baseWords_bitStmts bits

/-- `byte v` is the bits of `v` (R49). -/
theorem byteStmts_toNat (v : Byte) : byteStmts v.toNat = some ((byteBits v).flatMap bitStmts) := by
  rw [byteStmts, if_pos (Nat.le_of_lt_succ v.isLt), BitVec.ofNat_toNat, BitVec.setWidth_eq]

/-- `frame b1, ..., bn` is the bits of the frame on the wire (R47, R49). -/
theorem frameStmts_toNat (bytes : List Byte) :
    frameStmts (bytes.map fun v => v.toNat) = some ((wireFrame bytes).flatMap bitStmts) := by
  induction bytes with
  | nil => rfl
  | cons v bytes ih =>
    rw [List.map_cons, frameStmts, byteStmts_toNat, ih]
    simp [wireFrame, wireByte]

theorem length_wireFrame (bytes : List Byte) : (wireFrame bytes).length = 9 * bytes.length + 1 := by
  simp [wireFrame, wireByte, byteBits, List.length_flatMap, Nat.mul_comm]

/-- `preamble p` and `frame b1, ..., bn` write the EDGE words of the half-bits of the packet on the wire (R47, R49). -/
theorem assemble_packet (p : Nat) (bytes : List Byte) :
    assemble [.preamble p, .frame (bytes.map fun v => v.toNat)] =
      some ((nominalWidths (wireBits 0 p bytes)).map encodeE) := by
  have preamble := Stmt.words_of_expand (s := .preamble p) (bits := List.replicate p true) rfl
  have frame := Stmt.words_of_expand (s := .frame _) (frameStmts_toNat bytes)
  simp [assemble, preamble, frame, wireBits, nominalWidths]

/-- Where 116 is ONE and 200 is ZERO, the nominal widths classify as the half-bits they stand for (R53, R46). -/
theorem map_classify_nominalWidths {c : Config} (one : classify c 116 = .one) (zero : classify c 200 = .zero)
    (bits : List Bool) : (nominalWidths bits).map (classify c) = halfClasses bits := by
  have half (bit : Bool) : classify c (nominalWidth bit) = halfClass bit := by
    cases bit
    · exact zero
    · exact one
  simp [nominalWidths, halfClasses, List.map_flatMap, half]

end Sys2Proof.Machine
end

section
/-! CERTIFICATES. The statements of 30_encoding.md. -/

namespace Sys2Proof.Proofs

open Sys2Proof.Machine

/-- Settles O7: the encoder's words decode to their events, and only well-formed words, all of them the encoder's, decode. -/
theorem decodeAndEncodeAgree : Obligations.DecodeAndEncodeAgree :=
  ⟨decode_encode, fun _ _ => decode_eq_ok_iff.1⟩

/-- Settles O6: a kind out of range is none of the defined ones, and a nonzero field breaks its format's clause of
`ReservedZero`. -/
theorem wordsThatSpellNoEventAreRefused : Obligations.WordsThatSpellNoEventAreRefused := by
  have undefined : ∀ k : BitVec 4, k = 0x0#4 ∨ 0x5#4 ≤ k → ¬(k = 0x1#4 ∨ k = 0x2#4 ∨ k = 0x3#4 ∨ k = 0x4#4) := by
    decide
  refine ⟨fun w hk => decode_reservedKind (undefined _ hk), fun w hk hz => ?_, fun w hk hz => ?_, fun w hk hz => ?_,
    fun w hk hz => ?_, fun w => exists_decode_iff_wellFormed, fun s w rest hw hi => ?_⟩
  · exact decode_reservedBits (.inl hk) fun ⟨hE, _, _, _⟩ => hz (hE hk)
  · exact decode_reservedBits (.inr (.inl hk)) fun ⟨_, hO, _, _⟩ => hz (hO hk)
  · exact decode_reservedBits (.inr (.inr (.inl hk))) fun ⟨_, _, hW, _⟩ => hz (hW hk)
  · exact decode_reservedBits (.inr (.inr (.inr hk))) fun ⟨_, _, _, hR⟩ => hz.elim (· (hR hk).1) (· (hR hk).2)
  · have refused {r : Reject} (hd : decode w = .error r) : step s = .refused (refusalOf r) :=
      (step_event hw hi).trans (stepEvent_error hd _)
    exact ⟨refused, refused⟩

/-- Settles O8: the words of a row are the encoder's words for the events of its mnemonic; a word has one event, and a
mnemonic one row. -/
theorem everyWordMatchesAtMostOneRow : Obligations.EveryWordMatchesAtMostOneRow := by
  have row {w : EventWord} {i : Instr} (h : decode w = .ok i) :
      ∃ r ∈ opcodeTable, r.Matches w ∧ r.mnemonic = mnemonic i := by
    obtain rfl := decode_eq_ok_iff.1 h
    obtain ⟨r, hr, hm, hw⟩ := encode_matches_row i
    exact ⟨r, hr, hw, hm⟩
  refine ⟨rfl, fun w r q hr hq hrw hqw => ?_, fun _ _ => row, fun w r hr hw => ?_, fun w unmatched => ?_⟩
  · obtain ⟨i, rfl, hi⟩ := exists_encode_of_matches hr hrw
    obtain ⟨j, hij, hj⟩ := exists_encode_of_matches hq hqw
    obtain rfl := encode_injective hij
    exact opRow_eq_of_mnemonic hr hq (hi.symm.trans hj)
  · obtain ⟨i, hi, hm⟩ := exists_encode_of_matches hr hw
    exact ⟨i, decode_eq_ok_iff.2 hi, hm⟩
  · cases h : decode w with
    | error e => exact ⟨e, rfl⟩
    | ok i =>
      obtain ⟨r, hr, hw, -⟩ := row h
      exact absurd hw (unmatched r hr)

/-- Settles O59: in range the formulas of R48 are the words of formats E, O, HW and HR, and out of range the guard fails. -/
theorem baseStatementsWriteTheirWords : Obligations.BaseStatementsWriteTheirWords := by
  refine ⟨fun w => ⟨fun h => ?_, fun h => if_neg (by omega)⟩, rfl,
    fun a d => ⟨fun ha hd => ?_, fun h => if_neg (by omega)⟩, fun a => ⟨fun ha => ?_, fun h => if_neg (by omega)⟩⟩
  · rw [Base.word, if_pos h, ofNat_edge h, encode]
  · rw [Base.word, if_pos ⟨ha, hd⟩, ofNat_write ha hd, encode_wrInstr]
  · rw [Base.word, if_pos ha, ofNat_read ha, encode_rdInstr]

/-- Settles O60: every statement that spells bits writes the words of their nominal half-bits, and the statements of a packet
spell its bits on the wire. -/
theorem pseudoInstructionsSpellThePacket : Obligations.PseudoInstructionsSpellThePacket := by
  refine ⟨rfl, rfl, rfl, rfl, rfl, rfl, fun v => ?_, fun c p bytes h₁ h₂ h₃ h₄ h₅ => ?_⟩
  · refine ⟨_, Stmt.words_of_expand (s := .byte _) (byteStmts_toNat v), ?_⟩
    rw [nominalWidths, List.map_flatMap]
    congr 1
    funext bit
    cases bit <;> rfl
  · have one : classify c 116 = .one := if_pos ⟨h₁, h₂⟩
    have notOne : ¬(c.min1 ≤ 200 ∧ 200 < c.max1) := by omega
    have zero : classify c 200 = .zero := (if_neg notOne).trans (if_pos ⟨h₄, h₅⟩)
    refine ⟨_, assemble_packet p bytes, ?_, map_classify_nominalWidths one zero _⟩
    rw [length_nominalWidths, wireBits, List.length_append, List.length_append, List.length_replicate,
      List.length_replicate, length_wireFrame]
    omega

/-- Settles O9: each word is the encoder's word for its event. -/
theorem wordsFromTheFormatsDecode : Obligations.WordsFromTheFormatsDecode :=
  ⟨decode_encode (.edge 116), decode_encode .ovf, decode_encode (.wrControl 1), decode_encode (.wrBuf0 0xFF),
    decode_encode .rdStatus, decode_encode .rdBuf5⟩

end Sys2Proof.Proofs
end

section
/-! SUPPORT. The classifier's ranges (spec 40_edge_classifier.md R53), the outcomes an EDGE can latch (R52, 60_exceptions.md
R111), and what the front end's events for a long gap do to the block (40_edge_classifier.md R51,
43_control_and_overflow.md R79). -/

namespace Sys2Proof.Machine

/-- The one range is tested first (R53). -/
theorem classify_eq_one_iff (c : Config) (w : Width) :
    classify c w = .one ↔ c.min1 ≤ w.toNat ∧ w.toNat < c.max1 := by
  unfold classify
  split_ifs <;> simp [*]

/-- A width in neither range is invalid (R53). -/
theorem classify_eq_invalid_iff (c : Config) (w : Width) :
    classify c w = .invalid ↔
      ¬(c.min1 ≤ w.toNat ∧ w.toNat < c.max1) ∧ ¬(c.min0 ≤ w.toNat ∧ w.toNat ≤ c.max0) := by
  unfold classify
  split_ifs <;> simp [*]

/-- The zero range is tested second, but loses no width to the one range, which ends below it (R4, R53). -/
theorem classify_eq_zero_iff {c : Config} (hc : c.ThresholdsOk) (w : Width) :
    classify c w = .zero ↔ c.min0 ≤ w.toNat ∧ w.toNat ≤ c.max0 := by
  obtain ⟨-, -, hgap, -, -⟩ := hc
  unfold classify
  split_ifs with one zero
  · have above : ¬(c.min0 ≤ w.toNat ∧ w.toNat ≤ c.max0) := by omega
    simp [above]
  · simp [zero]
  · simp [zero]

variable {c : Config} {b b' : Block}

/-- A safe block that captures is not in Done (R23.5). -/
theorem Block.Inv.fstate_ne_done (h : b.Inv c) (ha : b.armed = true) : b.fstate ≠ .done := fun hf =>
  nomatch ha.symm.trans (h.done_disarmed hf)

/-- Outside Done the framer latches an outcome of its own, and never ERR_DONE (R62, R75). -/
theorem FramerArm.outcome_ne {bit : Bool} (arm : FramerArm c bit b b') (capturing : b.fstate ≠ .done) :
    b'.outcome ≠ .none ∧ b'.outcome ≠ .ovfReset ∧ b'.outcome ≠ .errDone := by
  have taken : ∀ bit, bitCode bit ≠ .none ∧ bitCode bit ≠ .ovfReset ∧ bitCode bit ≠ .errDone := by decide
  cases arm
  case inDone hf => exact absurd hf capturing
  case dataNext => exact taken bit
  case byteDone => exact taken bit
  all_goals exact ⟨nofun, nofun, nofun⟩

/-- An EDGE latches an outcome of its own, and never ERR_DONE where an armed block is outside Done (R52, R75). -/
theorem EdgeArm.outcome_ne {w : Width} (arm : EdgeArm c w b b') (capturing : b.armed = true → b.fstate ≠ .done) :
    b'.outcome ≠ .none ∧ b'.outcome ≠ .ovfReset ∧ b'.outcome ≠ .errDone := by
  cases arm
  case bit ha _ _ hb => exact hb.outcome_ne (capturing ha)
  all_goals exact ⟨nofun, nofun, nofun⟩

/-- A safe state has room in the buffer where a byte may complete (R70). -/
theorem State.Inv.room {s : State} (h : s.Inv) (hf : s.block.fstate = .dataBit) : s.block.len.toNat < 6 := by
  obtain ⟨-, -, -, hmax, -⟩ := (config_wf_iff s.cfg).1 h.cfg_wf
  exact hmax ▸ h.block_inv.dataBit_room hf

/-- The EDGE after a timing reset to Idle writes at most the half-bit latch and `outcome`: no half waits, so it completes no
bit (R52, R57). -/
theorem EdgeArm.eq_of_ovf {w : Width} (arm : EdgeArm c w b.ovf b') :
    ∃ v k o, b' = { b.timingReset .idle with hp_valid := v, hp_class := k, outcome := o } := by
  cases arm with
  | ignored ha => exact ⟨_, _, _, rfl⟩
  | badWidth ha hc => exact ⟨_, _, _, rfl⟩
  | firstHalf ha cls hc hv => exact ⟨_, _, _, rfl⟩
  | resync _ _ _ hv | badPhase _ _ _ hv | bit _ _ hv => cases hv

/-- A step with an OVF presented (R79). -/
theorem step_ovfInput {s : State} {rest : List Input} (hw : s.cfg.WellFormed) (hi : s.inputs = ovfInput :: rest) :
    step s = .next ((s.withInputs rest).finishEvent s.block.ovf) :=
  (step_event hw hi).trans (stepEvent_ok decode_encodeO _)

/-- One OVF or more in a row leave what the last of them leaves, the timing reset, and publish nothing (R79). -/
theorem runsTo_ovfs (n : Nat) {s : State} {rest : List Input} (hw : s.cfg.WellFormed)
    (hi : s.inputs = List.replicate (n + 1) ovfInput ++ rest) :
    s.RunsTo (n + 1) ((s.withInputs rest).finishEvent s.block.ovf) [] := by
  induction n generalizing s with
  | zero => exact (State.RunsTo.refl _).head (step_ovfInput hw hi)
  | succ n ih =>
    have later := ih (s := (s.withInputs (List.replicate (n + 1) ovfInput ++ rest)).finishEvent s.block.ovf) hw rfl
    exact later.head (step_ovfInput hw hi)

end Sys2Proof.Machine
end

section
/-! CERTIFICATES. The statements of 40_edge_classifier.md. -/

namespace Sys2Proof.Proofs

open Sys2Proof.Machine

/-- Settles O10: the iff of each class, and the default thresholds put into them. -/
theorem classifierRanges : Obligations.ClassifierRanges := by
  refine ⟨fun c w hc => ?_, fun w => ?_⟩
  · obtain ⟨thresholds, -⟩ := (config_wf_iff c).1 hc
    exact ⟨classify_eq_one_iff c w, classify_eq_zero_iff thresholds w, classify_eq_invalid_iff c w⟩
  · obtain ⟨wf, -, -, -, -, min1, max1, min0, max0, -⟩ := defaultThresholdsFromMicroseconds
    obtain ⟨thresholds, -⟩ := (config_wf_iff _).1 wf
    rw [classify_eq_one_iff, classify_eq_zero_iff thresholds, classify_eq_invalid_iff, min1, max1, min0, max0]
    omega

/-- Settles O28: a safe block has room for a byte that completes and does not capture in Done, so EDGE completes, and its arm
latches one of the codes left. -/
theorem edgeCompletesWithOneOutcome : Obligations.EdgeCompletesWithOneOutcome := by
  intro s w hs
  obtain ⟨b, hb⟩ := Block.edge_completes s.cfg w s.block hs.room
  have arm := Block.edge_ok hb
  exact ⟨b, (EventArm.edge w b arm).exec_eq, arm.outcome_ne hs.block_inv.fstate_ne_done⟩

/-- Settles O58: the gap brings at least one OVF, which resets the timing state; the EDGE after it can latch a first half,
but completes no bit. -/
theorem overlongGapEndsTheFrame : Obligations.OverlongGapEndsTheFrame := by
  intro s gap rest hs hgap hi
  obtain ⟨n, hn⟩ : ∃ n, gap / 2 ^ 16 = n + 1 := Nat.exists_eq_succ_of_ne_zero (by omega)
  rw [frontEndEvents, List.append_assoc, hn] at hi
  have overflows := runsTo_ovfs n hs.cfg_wf hi
  obtain ⟨b, hb⟩ := Block.edge_completes s.cfg (BitVec.ofNat 16 (gap % 2 ^ 16)) s.block.ovf nofun
  have edge := step_edgeInput (s := (s.withInputs (edgeInput _ :: rest)).finishEvent s.block.ovf) hs.cfg_wf rfl hb
  have whole := overflows.trans ((State.RunsTo.refl _).head edge)
  obtain ⟨v, k, o, rfl⟩ := (Block.edge_ok hb).eq_of_ovf
  rw [hn]
  exact ⟨_, whole.run_eq, rfl, rfl, rfl, rfl, rfl, rfl, rfl, rfl, rfl⟩

/-- Settles O11: the capture gate's arm of EDGE. -/
theorem disarmedEdgeIsIgnored : Obligations.DisarmedEdgeIsIgnored := fun _ w ha =>
  (EventArm.edge w _ (.ignored ha)).exec_eq

/-- Settles O12: the arm of EDGE for an invalid width, which asks nothing of `fstate` or the latch. -/
theorem invalidWidthTakesErrorEntry : Obligations.InvalidWidthTakesErrorEntry := fun _ w ha hc =>
  (EventArm.edge w _ (.badWidth ha hc)).exec_eq

end Sys2Proof.Proofs
end

section
/-! CERTIFICATES. The statements of 41_bit_assembler.md. -/

namespace Sys2Proof.Proofs

open Sys2Proof.Machine

/-- Settles O13: the arm of EDGE that latches a first half, which does not ask for `fstate`. -/
theorem firstHalfIsLatched : Obligations.FirstHalfIsLatched := fun _ w cls ha hc hv =>
  (EventArm.edge w _ (.firstHalf ha cls hc hv)).exec_eq

/-- Settles O14: the arm of EDGE for a mismatch in the preamble phase, which writes the latched class and `outcome` only. -/
theorem mismatchInPreamblePhaseResyncs : Obligations.MismatchInPreamblePhaseResyncs := fun _ w cls ha hc hv hm hp =>
  (EventArm.edge w _ (.resync ha cls hc hv hm hp)).exec_eq

/-- Settles O15: the arm of EDGE for a mismatch in the other phases, which is the error entry. -/
theorem mismatchOutsidePreambleTakesErrorEntry : Obligations.MismatchOutsidePreambleTakesErrorEntry :=
  fun _ w cls ha hc hv hm notIdle notPreamble =>
    (EventArm.edge w _ (.badPhase ha cls hc hv hm (not_or.2 ⟨notIdle, notPreamble⟩))).exec_eq

end Sys2Proof.Proofs
end

section
/-! SUPPORT. What the framer has taken since a fresh Idle, read off its phase: the converse of "the framer on the wire format"
above (spec 42_packet_framer.md R62 to R78). -/

namespace Sys2Proof.Machine

variable {c : Config} {bit : Bool} {bits : List Bool} {b b' m : Block}

/-- The framer is a function: the same bits taken lead to one block. -/
theorem Block.tookBits_unique (h : b.tookBits c bits m) (h' : b.tookBits c bits b') : m = b' := by
  induction bits generalizing b with
  | nil => exact Eq.trans (Eq.symm h) h'
  | cons bit bits ih =>
    obtain ⟨k, hk, h⟩ := h
    obtain ⟨k', hk', h'⟩ := h'
    obtain rfl : k = k' := Except.ok.inj (hk.1.symm.trans hk'.1)
    exact ih h h'

/-- What holds where the bits lead holds of the block they led to. -/
theorem Block.Takes.of_tookBits {P : Block → Prop} (h : b.Takes c bits P) (ht : b.tookBits c bits m) : P m := by
  obtain ⟨k, hk, hp⟩ := h
  exact tookBits_unique hk ht ▸ hp

theorem Block.Takes.of_tookBit {P : Block → Prop} (h : b.Takes c [bit] P) (ht : b.tookBit c bit m) : P m :=
  h.of_tookBits ⟨m, ht, rfl⟩

/-- A bit whose arm answers an error, a reset or a packet is not taken (R78). -/
theorem FramerArm.not_tookBit (arm : FramerArm c bit b b') (ho : b'.outcome ≠ bitCode bit) : ¬b.tookBit c bit m := by
  rintro ⟨hs, taken⟩
  obtain rfl : b' = m := Except.ok.inj (arm.framerStep_eq.symm.trans hs)
  exact ho taken

/-- `bytes` are framed and `bits` of the next byte are in (R68, R69). -/
structure Block.InByte (bytes : List Byte) (bits : List Bool) (b : Block) : Prop where
  fstate_eq : b.fstate = .dataBit
  bitcnt_eq : b.bitcnt.toNat = bits.length
  cur_eq : b.cur = bits.foldl shiftIn 0
  len_eq : b.len.toNat = bytes.length
  packet_eq : b.packet = bytes
  room : bytes.length < 6

/-- At its first data bit the framer has none of the byte. -/
theorem Block.AtByte.inByte {bytes : List Byte} (h : b.AtByte bytes) : b.InByte bytes [] :=
  ⟨h.fstate_eq, congrArg BitVec.toNat h.bitcnt_eq, h.cur_eq, h.len_eq, h.packet_eq, h.room⟩

/-- A data bit that does not complete the byte joins the bits that are in (R69). -/
theorem Block.InByte.takes_dataNext {bytes : List Byte} (hc : c.FixedOk) (h : b.InByte bytes bits)
    (hn : bits.length < 7) (bit : Bool) : b.Takes c [bit] (InByte bytes (bits ++ [bit])) := by
  have room : b.bitcnt.toNat + [bit].length < 8 := by rw [h.bitcnt_eq]; exact Nat.succ_lt_succ hn
  obtain ⟨m, ht, hf, hk, hcur, hlen, hbuf⟩ := Block.takes_dataNext hc [bit] h.fstate_eq room
  refine ⟨m, ht, hf, ?_, ?_, hlen ▸ h.len_eq, ?_, h.room⟩
  · rw [hk, h.bitcnt_eq, List.length_append]
  · rw [hcur, h.cur_eq, List.foldl_append]
  · rw [← h.packet_eq, Block.packet, Block.packet, hlen, hbuf]

/-- Eight bits shifted in are the byte's bits in wire order (R12, R25). -/
theorem byteBits_foldl_shiftIn (h : bits.length = 8) : byteBits (bits.foldl shiftIn 0) = bits := by
  have all : ∀ a b c d e f g h : Bool,
      byteBits ([a, b, c, d, e, f, g, h].foldl shiftIn 0) = [a, b, c, d, e, f, g, h] := by decide
  match bits, h with
  | [a, b, c, d, e, f, g, h], _ => exact all a b c d e f g h

/-- The eighth data bit puts the byte that the eight bits spell after the bytes already framed (R70). -/
theorem Block.InByte.takes_byteDone {bytes : List Byte} (hc : c.FixedOk) (h : b.InByte bytes bits)
    (hn : bits.length = 7) (bit : Bool) :
    ∃ v, byteBits v = bits ++ [bit] ∧ b.Takes c [bit] (AfterByte (bytes ++ [v])) := by
  refine ⟨shiftIn b.cur bit, ?_, ?_⟩
  · rw [h.cur_eq, ← List.foldl_concat shiftIn, byteBits_foldl_shiftIn (by simp [hn])]
  · exact Block.takes_byteDone hc h.fstate_eq (h.bitcnt_eq.trans hn) h.len_eq h.packet_eq h.room

/-- The buffer holds no more than 6 bytes (R14). -/
theorem Block.AfterByte.length_le {bytes : List Byte} (h : b.AfterByte bytes) : bytes.length ≤ 6 := by
  rw [← h.packet_eq, Block.packet, List.length_take, Vector.length_toList]
  exact Nat.min_le_right _ _

/-- Between two bytes the framer is in StartBit or EndBit. -/
theorem Block.AfterByte.fstate_cases {bytes : List Byte} (h : b.AfterByte bytes) :
    b.fstate = .startBit ∧ bytes.length < 6 ∨ b.fstate = .endBit := by
  have hf := h.fstate_eq
  split at hf
  · exact .inr hf
  · next hn => exact .inl ⟨hf, Nat.lt_of_le_of_ne h.length_le hn⟩

/-- `0^z 1^p 0 B1 ... 0 Bn`: the wire format up to its end bit (R47). -/
def wireStart (z p : Nat) (bytes : List Byte) : List Bool :=
  List.replicate z false ++ (List.replicate p true ++ bytes.flatMap wireByte)

theorem wireBits_eq (z p : Nat) (bytes : List Byte) : wireBits z p bytes = wireStart z p bytes ++ [true] := by
  simp [wireBits, wireStart, wireFrame]

theorem wireStart_concat (z p : Nat) (bytes : List Byte) (v : Byte) :
    wireStart z p (bytes ++ [v]) = wireStart z p bytes ++ false :: byteBits v := by
  simp [wireStart, wireByte]

/-- The bits that the framer has taken since a fresh Idle are this beginning of the wire format, as its phase says. -/
inductive Block.Heard (bits : List Bool) (b : Block) : Prop where
  /-- Noise only (R63). -/
  | noise (z : Nat) (hbits : bits = List.replicate z false) (hf : b.fstate = .idle)
  /-- Some of the preamble (R64, R65). -/
  | ones (z p : Nat) (hbits : bits = List.replicate z false ++ List.replicate p true) (hf : b.fstate = .preamble)
      (hn : b.pcount.toNat = min p 255)
  /-- Some of a data byte, after its start bit (R67 to R71). -/
  | data (z p : Nat) (bytes : List Byte) (byte : List Bool) (hp : 12 ≤ p)
      (hbits : bits = wireStart z p bytes ++ false :: byte) (h : b.InByte bytes byte)
  /-- Whole bytes, at least one (R70). -/
  | framed (z p : Nat) (bytes : List Byte) (hp : 12 ≤ p) (h₁ : 1 ≤ bytes.length) (hbits : bits = wireStart z p bytes)
      (h : b.AfterByte bytes)

/-- A bit that the framer takes continues the wire format (R62). -/
theorem Block.Heard.tookBit (hc : c.FixedOk) (h : b.Heard bits) (ht : b.tookBit c bit b') : b'.Heard (bits ++ [bit]) := by
  cases h with
  | noise z hbits hf =>
    subst hbits
    cases bit with
    | false => exact .noise (z + 1) List.replicate_succ'.symm ((takes_zeros_idle c 1 hf).of_tookBit ht)
    | true =>
      obtain ⟨hf', hn⟩ := (takes_ones_idle hc Nat.le.refl hf).of_tookBit ht
      exact .ones z 1 rfl hf' hn
  | ones z p hbits hf hn =>
    subst hbits
    cases bit with
    | true =>
      obtain ⟨hf', hn'⟩ := (takes_ones_preamble hc 1 hf).of_tookBit ht
      exact .ones z (p + 1) (by rw [List.append_assoc, List.replicate_succ']) hf' (by omega)
    | false =>
      by_cases long : 12 ≤ b.pcount.toNat
      · have began : b'.AtByte [] := (takes_frameBegin hc hf long).of_tookBit ht
        exact .data z p [] [] (by omega) (by simp [wireStart]) began.inByte
      · obtain ⟨-, hmin, -⟩ := hc
        have short : FramerArm c false b _ := .tooShort hf rfl (by omega)
        exact absurd ht (short.not_tookBit nofun)
  | data z p bytes byte hp hbits h =>
    subst hbits
    by_cases last : byte.length = 7
    · obtain ⟨v, hv, takes⟩ := h.takes_byteDone hc last bit
      refine .framed z p (bytes ++ [v]) hp (by simp) ?_ (takes.of_tookBit ht)
      rw [wireStart_concat, hv, List.append_assoc, List.cons_append]
    · have more : byte.length < 7 := by have := h.bitcnt_eq; omega
      exact .data z p bytes (byte ++ [bit]) hp (List.append_assoc ..) ((h.takes_dataNext hc more bit).of_tookBit ht)
  | framed z p bytes hp h₁ hbits h =>
    subst hbits
    cases bit with
    | true => exact absurd ht (FramerArm.not_tookBit (framerStep_ok (h.framerStep_endBit c)) nofun)
    | false =>
      obtain ⟨-, hn⟩ | hf := h.fstate_cases
      · exact .data z p bytes [] hp rfl ((h.takes_startBit c hn).of_tookBit ht).inByte
      · exact absurd ht (FramerArm.not_tookBit (.tooLong hf rfl) nofun)

/-- Bits that the framer takes continue the wire format. -/
theorem Block.Heard.tookBits {before : List Bool} (hc : c.FixedOk) (h : b.Heard before) (ht : b.tookBits c bits m) :
    m.Heard (before ++ bits) := by
  induction bits generalizing before b with
  | nil =>
    obtain rfl : b = m := ht
    rwa [List.append_nil]
  | cons bit bits ih =>
    obtain ⟨k, hk, ht⟩ := ht
    rw [List.append_cons]
    exact ih (h.tookBit hc hk) ht

/-- A run from a fresh Idle is never in Done, and has room for the byte it is in (R70, R78). -/
theorem Block.Heard.capturing (h : b.Heard bits) : b.fstate ≠ .done ∧ (b.fstate = .dataBit → b.len.toNat < 6) := by
  cases h with
  | noise _ _ hf => simp [hf]
  | ones _ _ _ hf => simp [hf]
  | data _ _ _ _ _ _ h => simp [h.fstate_eq, h.len_eq, h.room]
  | framed _ _ _ _ _ _ h => obtain ⟨hf, -⟩ | hf := h.fstate_cases <;> simp [hf]

/-- Between two bytes the framer has heard whole bytes after a long enough preamble. -/
theorem Block.Heard.wireStart_of_fstate (h : b.Heard bits) (hf : b.fstate = .startBit ∨ b.fstate = .endBit) :
    ∃ z p bytes, 12 ≤ p ∧ 1 ≤ bytes.length ∧ bytes.length ≤ 6 ∧ bits = wireStart z p bytes := by
  cases h with
  | noise _ _ hf' => simp [hf'] at hf
  | ones _ _ _ hf' => simp [hf'] at hf
  | data _ _ _ _ _ _ h => simp [h.fstate_eq] at hf
  | framed z p bytes hp h₁ hbits h => exact ⟨z, p, bytes, hp, h₁, h.length_le, hbits⟩

/-- Outside Done the framer publishes at the end bit, or takes the bit, or raises one of its two framing errors (R62). -/
theorem FramerArm.outcome_cases (arm : FramerArm c bit b b') (capturing : b.fstate ≠ .done) :
    (b'.outcome = .packet ∧ bit = true ∧ (b.fstate = .startBit ∨ b.fstate = .endBit)) ∨
      b'.outcome = bitCode bit ∨ b'.outcome = .errPreamble ∨ b'.outcome = .errTooLong := by
  cases arm with
  | complete hf hb => exact .inl ⟨rfl, hb, hf⟩
  | tooShort => exact .inr (.inr (.inl rfl))
  | tooLong => exact .inr (.inr (.inr rfl))
  | inDone hf => exact absurd hf capturing
  | dataNext | byteDone => exact .inr (.inl rfl)
  | idleZero _ hb | idleOne _ hb | preambleOne _ hb | frameBegin _ hb | startZero _ hb =>
    subst hb
    exact .inr (.inl rfl)

end Sys2Proof.Machine
end

section
/-! CERTIFICATES. The statements of 42_packet_framer.md: the wire format. -/

namespace Sys2Proof.Proofs

open Sys2Proof.Machine

/-- Settles O55: the bits before the end bit of a packet lead, as they must, to the block where its bytes are framed and the
end bit publishes them; and the framer publishes only between two bytes, where it has heard such bits. -/
theorem framerPublishesExactlyTheWireFormat : Obligations.FramerPublishesExactlyTheWireFormat := by
  intro c b m bits bit hw ⟨_, hf, _⟩ taken
  obtain ⟨-, fixed⟩ := (config_wf_iff c).1 hw
  have heard : m.Heard bits := (Block.Heard.noise (bits := []) 0 rfl hf).tookBits fixed taken
  obtain ⟨capturing, room⟩ := heard.capturing
  obtain ⟨b', hs⟩ := Block.framerStep_completes c bit m room
  have outcomes := (Block.framerStep_ok hs).outcome_cases capturing
  have completes {z p : Nat} {bytes : List Byte} (hp : 12 ≤ p) (h₁ : 1 ≤ bytes.length) (h₆ : bytes.length ≤ 6)
      (hbits : bits ++ [bit] = wireBits z p bytes) : m.AfterByte bytes ∧ b' = m.complete := by
    rw [wireBits_eq] at hbits
    obtain ⟨rfl, rfl⟩ := List.append_singleton_inj.1 hbits
    have framed : m.AfterByte bytes := (Block.takes_wireFormat fixed z hp h₁ h₆ hf).of_tookBits taken
    exact ⟨framed, Except.ok.inj (hs.symm.trans (framed.framerStep_endBit c))⟩
  refine ⟨b', hs, ⟨fun ho => ?_, fun ⟨z, p, bytes, hp, h₁, h₆, hbits⟩ => ?_⟩, fun z p bytes hp h₁ h₆ hbits => ?_,
    outcomes.imp_left And.left⟩
  · obtain ⟨-, rfl, between⟩ | taken | short | long := outcomes
    · obtain ⟨z, p, bytes, hp, h₁, h₆, rfl⟩ := heard.wireStart_of_fstate between
      exact ⟨z, p, bytes, hp, h₁, h₆, (wireBits_eq z p bytes).symm⟩
    · cases bit <;> exact nomatch ho.symm.trans taken
    · exact nomatch ho.symm.trans short
    · exact nomatch ho.symm.trans long
  · obtain ⟨-, rfl⟩ := completes hp h₁ h₆ hbits
    rfl
  · obtain ⟨framed, rfl⟩ := completes hp h₁ h₆ hbits
    exact ⟨framed.packet_eq, framed.len_eq, rfl, rfl, rfl⟩

end Sys2Proof.Proofs
end

section
/-! SUPPORT. The EDGE that completes a bit (spec 41_bit_assembler.md R58), and the framer's shift
and counts written as register arithmetic (42_packet_framer.md R65 to R70). -/

namespace Sys2Proof.Machine

/-- An EDGE of the latched class `cls` answers what the framer's arm answers from the block with the latch cleared (R58). -/
theorem exec_edge_bit {s : State} {w : Width} {cls : Bool} {b' : Block} (ha : s.block.armed = true)
    (hv : s.block.hp_valid = true) (hk : s.block.hp_class = cls) (hc : classify s.cfg w = halfClass cls)
    (arm : FramerArm s.cfg cls { s.block with hp_valid := false, hp_class := false } b') :
    exec (.edge w) s = .next (s.finishEvent b') := by
  subst hk
  exact (EventArm.edge w b' (.bit ha hc hv b' arm)).exec_eq

/-- `{cur[6:0], b}` is `cur` shifted left by one with the bit at bit 0 (R68). -/
theorem shiftIn_eq_shiftLeft (cur : Byte) (bit : Bool) : shiftIn cur bit = cur <<< 1 ||| (if bit then 1 else 0) := by
  revert cur bit
  decide

/-- The count of data bits as register arithmetic (R69). -/
theorem ofNat_bitcnt_succ (n : BitVec 3) : BitVec.ofNat 3 (n.toNat + 1) = n + 1 := by
  rw [BitVec.ofNat_add, BitVec.ofNat_toNat, BitVec.setWidth_eq]
  rfl

/-- The saturating count of one-bits as register arithmetic (R65). -/
theorem ofNat_pcount_succ (n : BitVec 8) :
    BitVec.ofNat 8 (min (n.toNat + 1) 255) = if n = 255 then 255 else n + 1 := by
  split
  · next hn =>
    subst hn
    rfl
  · next hn =>
    have below : n.toNat + 1 ≤ 255 := by bv_omega
    rw [Nat.min_eq_left below, BitVec.ofNat_add, BitVec.ofNat_toNat, BitVec.setWidth_eq]
    rfl

/-- The byte that makes the length 6 is the one written at `len = 5` (R70). -/
theorem toNat_len_succ_eq_six_iff (len : BitVec 3) : len.toNat + 1 = 6 ↔ len = 5 := by
  constructor <;> intro h <;> bv_omega

/-- With no room in the buffer the byte completion faults (log entry 8). -/
theorem Block.byteDone_faults (c : Config) (v : Byte) (bit : Bool) {b : Block} (hl : 6 ≤ b.len.toNat) :
    b.byteDone c v bit = .error .bufferIndexOutOfRange := by
  simp [Block.byteDone, Block.appendByte, Nat.not_lt.2 hl]

/-- An EDGE of the latched class runs the framer from the block with the latch cleared (R58). -/
theorem Block.edge_of_latched {c : Config} {w : Width} {b : Block} (ha : b.armed = true) (hv : b.hp_valid = true)
    (hc : classify c w = halfClass b.hp_class) :
    b.edge c w = { b with hp_valid := false, hp_class := false }.framerStep c b.hp_class := by
  rw [Block.edge_of_halfClass ha hc]
  simp [Block.assemble, hv, Block.completeBit]

end Sys2Proof.Machine
end

section
/-! CERTIFICATES. The statements of 42_packet_framer.md: each EDGE that completes a bit, by the framer's arm that it runs. -/

namespace Sys2Proof.Proofs

open Sys2Proof.Machine

/-- Settles O22: the arm that completes a byte, its shift written as a register operation and its next phase read off
`len`. -/
theorem eighthDataBitCompletesByte : Obligations.EighthDataBitCompletesByte := by
  intro s w hw ha hv hc hf hn hl
  obtain ⟨-, -, -, hmax, hbits, -⟩ := (config_wf_iff s.cfg).1 hw
  have eighth : s.cfg.byteBits ≤ s.block.bitcnt.toNat + 1 := by rw [hbits, hn]; rfl
  rw [exec_edge_bit ha hv rfl hc (.byteDone (b := { s.block with hp_valid := false, hp_class := false }) hf eighth hl)]
  simp only [shiftIn_eq_shiftLeft, hmax, toNat_len_succ_eq_six_iff]
  rfl

/-- Settles O16: the framer's arm for a zero-bit in Idle. -/
theorem zeroBitInIdleIsTaken : Obligations.ZeroBitInIdleIsTaken := fun _ _ ha hv hk hc hf =>
  exec_edge_bit ha hv hk hc (.idleZero hf rfl)

/-- Settles O17: the framer's arm for a one-bit in Idle. -/
theorem firstOneBitEntersPreamble : Obligations.FirstOneBitEntersPreamble := fun _ _ ha hv hk hc hf =>
  exec_edge_bit ha hv hk hc (.idleOne hf rfl)

/-- Settles O18: the framer's arm for a one-bit in Preamble; the minimum of R65 is the saturation at 255. -/
theorem preambleCountsAndSaturates : Obligations.PreambleCountsAndSaturates := by
  intro s w hw ha hv hk hc hf
  obtain ⟨-, -, -, -, -, -, hmax⟩ := (config_wf_iff s.cfg).1 hw
  rw [exec_edge_bit ha hv hk hc (.preambleOne hf rfl)]
  simp only [hmax, ofNat_pcount_succ]
  rfl

/-- Settles O19: the framer's arm for a zero-bit after too few one-bits, which is the error entry. -/
theorem shortPreambleTakesErrorEntry : Obligations.ShortPreambleTakesErrorEntry := fun _ _ ha hv hk hc hf hp =>
  exec_edge_bit ha hv hk hc (.tooShort hf rfl hp)

/-- Settles O20: the framer's arm for a zero-bit after enough one-bits, which does not write `buf`. -/
theorem longPreambleBeginsFrame : Obligations.LongPreambleBeginsFrame := fun _ _ ha hv hk hc hf hp =>
  exec_edge_bit ha hv hk hc (.frameBegin hf rfl hp)

/-- Settles O21: the framer's arm for a data bit with fewer than seven bits in, its shift and count written as register
operations. -/
theorem dataBitIsShiftedIn : Obligations.DataBitIsShiftedIn := by
  intro s w hw ha hv hc hf hn
  obtain ⟨-, -, -, -, hbits, -⟩ := (config_wf_iff s.cfg).1 hw
  have notEighth : s.block.bitcnt.toNat + 1 < s.cfg.byteBits := by rw [hbits]; bv_omega
  rw [exec_edge_bit ha hv rfl hc (.dataNext hf notEighth)]
  simp only [shiftIn_eq_shiftLeft, ofNat_bitcnt_succ]
  rfl

/-- Settles O23: the eighth data bit completes a byte, which has no index in the buffer. -/
theorem byteWithNoRoomFaults : Obligations.ByteWithNoRoomFaults := by
  intro s w hw ha hv hc hf hn hl
  obtain ⟨-, -, -, -, hbits, -⟩ := (config_wf_iff s.cfg).1 hw
  have faults : s.block.edge s.cfg w = .error .bufferIndexOutOfRange := by
    rw [Block.edge_of_latched ha hv hc]
    simp [Block.framerStep, hf, Block.dataShift, hbits, hn, Block.byteDone_faults, hl]
  rw [exec_edge, faults]

/-- Settles O24: the framer's arm for a zero-bit in StartBit. -/
theorem zeroBitInStartBitBeginsByte : Obligations.ZeroBitInStartBitBeginsByte := fun _ _ ha hv hk hc hf =>
  exec_edge_bit ha hv hk hc (.startZero hf rfl)

/-- Settles O25: the framer's arm for a one-bit in StartBit and EndBit, which writes neither `len` nor `buf`. -/
theorem endBitPublishesPacket : Obligations.EndBitPublishesPacket := fun _ _ ha hv hk hc hf =>
  exec_edge_bit ha hv hk hc (.complete hf rfl)

/-- Settles O26: the framer's arm for a zero-bit in EndBit, which is the error entry. -/
theorem seventhByteTakesErrorEntry : Obligations.SeventhByteTakesErrorEntry := fun _ _ ha hv hk hc hf =>
  exec_edge_bit ha hv hk hc (.tooLong hf rfl)

/-- Settles O27: the framer's arm for a bit of either class in Done, which is the error entry. -/
theorem bitInDoneTakesErrorEntry : Obligations.BitInDoneTakesErrorEntry := fun _ _ ha hv hc hf =>
  exec_edge_bit ha hv rfl hc (.inDone hf)

end Sys2Proof.Proofs
end

section
/-! SUPPORT. The writes to CONTROL by the low two bits of the data byte (spec 43_control_and_overflow.md R81, R84), and the
addresses of the writes that have no effect (R80). -/

namespace Sys2Proof.Machine

/-- Two data bytes that agree on bits 0 and 1 ask for the same command (R84). -/
theorem commandOf_congr {d e : Byte} (h0 : d[0] = e[0]) (h1 : d[1] = e[1]) : commandOf d = commandOf e := by
  rw [commandOf, commandOf, h0, h1]

/-- A CONTROL write reads bits 0 and 1 of its data byte only (R84). -/
theorem exec_wrControl_congr {d e : Byte} (h0 : d[0] = e[0]) (h1 : d[1] = e[1]) (s : State) :
    exec (.wrControl d) s = exec (.wrControl e) s := by
  have same : s.block.control d = s.block.control e := by rw [Block.control, Block.control, commandOf_congr h0 h1]
  calc exec (.wrControl d) s
    _ = .next (s.settle (s.block.control d) Output.silent) := rfl
    _ = .next (s.settle (s.block.control e) Output.silent) := by rw [same]
    _ = exec (.wrControl e) s := rfl

/-- The addresses of the register map other than CONTROL (R80). -/
def addrsBesideControl : List RegAddr :=
  [0x0, 0x2, 0x3, 0x4, 0x5, 0x6, 0x7, 0x8, 0x9, 0xA, 0xB, 0xC, 0xD, 0xE, 0xF]

theorem mem_addrsBesideControl_iff (a : RegAddr) : a ∈ addrsBesideControl ↔ a ≠ 0x1#4 := by
  revert a
  decide

/-- With capture disabled, a step after which capture is enabled runs a START (R86): power-on reset leaves capture disabled,
and the arms of the other events do not write `armed`. -/
theorem StepArm.start_of_rearmed {s t : State} (arm : StepArm s t) (ha : s.block.armed = false)
    (ht : t.block.armed = true) :
    ∃ w rest d, s.inputs = .event w :: rest ∧ decode w = .ok (.wrControl d) ∧ d[0] = true := by
  cases arm with
  | wait hi => exact nomatch ha.symm.trans ht
  | powerOn draw rest hi => exact nomatch ht
  | event w rest i b o hi hd he =>
    by_contra noStart
    have notStart : ∀ d, i = .wrControl d → d[0] = false := fun d hc =>
      Bool.eq_false_of_not_eq_true fun h0 => noStart ⟨w, rest, d, hi, hc ▸ hd, h0⟩
    obtain ⟨-, -, kept⟩ := he.packet_frame ha notStart
    exact nomatch (kept.trans ha).symm.trans ht

end Sys2Proof.Machine
end

section
/-! CERTIFICATES. The statements of 43_control_and_overflow.md. -/

namespace Sys2Proof.Proofs

open Sys2Proof.Machine

/-- Settles O35: the arms of CLEAR_READY, of a write with no effect and of START, and that a CONTROL write reads the two low
bits only. -/
theorem controlCommands : Obligations.ControlCommands := by
  intro s d
  refine ⟨fun h0 h1 => (EventArm.clearReady d h0 h1).exec_eq, fun h0 h1 => ?_, fun h0 _ => ?_, ?_⟩
  · exact (EventArm.noEffect 0x1#4 d (by simp [h0, h1])).exec_eq
  · exact (EventArm.start d h0).exec_eq.trans (EventArm.start 0x01 rfl).exec_eq.symm
  · exact exec_wrControl_congr (by simp) (by simp) s

/-- Settles O45: of the arms of a step only START's enables capture. -/
theorem neverRearmsItself : Obligations.NeverRearmsItself := by
  intro s t hst ha ht
  obtain ⟨-, arm⟩ := step_next hst
  exact arm.start_of_rearmed ha ht

/-- Settles O32: the arm of OVF, which does not ask for `armed`. -/
theorem ovfResetsTimingState : Obligations.OvfResetsTimingState := fun _ => EventArm.ovf.exec_eq

/-- Settles O33: the 15 events are the writes to the addresses other than CONTROL, whose arm keeps the block. -/
theorem writesElsewhereHaveNoEffect : Obligations.WritesElsewhereHaveNoEffect := by
  intro s d i hi
  obtain ⟨a, ha, rfl⟩ : ∃ a ∈ addrsBesideControl, wrInstr a d = i := List.mem_map.1 hi
  have notControl : a ≠ 0x1#4 := (mem_addrsBesideControl_iff a).1 ha
  exact (EventArm.noEffect a d fun h => notControl h.1).exec_eq

/-- Settles O34: the arm of START. -/
theorem startRearms : Obligations.StartRearms := fun _ d h0 => (EventArm.start d h0).exec_eq

end Sys2Proof.Proofs
end

section
/-! SUPPORT. The validator's flags (spec 44_packet_validator.md R87 to R89): what each holds of, and the XOR of a packet with a
last byte. -/

namespace Sys2Proof.Machine

/-- The checksum flag is the XOR being zero (R89). -/
theorem Block.csumOk_iff (b : Block) : b.csumOk = true ↔ b.pxor = 0 := decide_eq_true_iff

/-- The length flag is a comparison with `VALID_LEN_MIN` (R88). -/
theorem Block.lenOk_iff (c : Config) (b : Block) : b.lenOk c = true ↔ c.validLenMin ≤ b.len.toNat := decide_eq_true_iff

/-- A block of no bytes has XOR zero (R87). -/
theorem Block.pxor_of_len_zero {b : Block} (h : b.len = 0) : b.pxor = 0 := by
  simp [Block.pxor, Block.packet, h]

/-- The packet of `n + 1` bytes is the first `n` bytes and the last one. -/
theorem Block.packet_of_len_succ {b : Block} {n : Nat} (hn : n < 6) (h : b.len.toNat = n + 1) :
    b.packet = b.buf.toList.take n ++ [b.buf[n]] := by
  rw [Block.packet, h, List.take_succ_eq_append_getElem (by simpa using hn), Vector.getElem_toList]

/-- The XOR takes the last byte last (R87). -/
theorem Block.pxor_of_len_succ {b : Block} {n : Nat} (hn : n < 6) (h : b.len.toNat = n + 1) :
    b.pxor = (b.buf.toList.take n).foldl (fun x y => x ^^^ y) 0 ^^^ b.buf[n] := by
  rw [Block.pxor, Block.packet_of_len_succ hn h, List.foldl_concat]

/-- The two forms of the checksum (R89): the XOR of all bytes is zero exactly when the last byte is the XOR of those before. -/
theorem Block.csumOk_iff_last {b : Block} {n : Nat} (hn : n < 6) (h : b.len.toNat = n + 1) :
    b.csumOk = true ↔ b.buf[n] = (b.buf.toList.take n).foldl (fun x y => x ^^^ y) 0 := by
  rw [Block.csumOk_iff, Block.pxor_of_len_succ hn h]
  exact BitVec.xor_eq_zero_iff.trans eq_comm

end Sys2Proof.Machine
end

section
/-! CERTIFICATES. The statements of 44_packet_validator.md. -/

namespace Sys2Proof.Proofs

open Sys2Proof.Machine

/-- Settles O42: `VALID_LEN_MIN` is 3 in a well-formed configuration, and the last byte cancels the XOR of those before it
exactly when it equals it. -/
theorem checksumFormsAgree : Obligations.ChecksumFormsAgree := by
  intro c b hc hlen
  obtain ⟨-, -, -, -, -, minLen, -⟩ := (config_wf_iff c).1 hc
  refine ⟨?_, rfl, b.csumOk_iff, Block.pxor_of_len_zero, fun _ hn h => Block.csumOk_iff_last hn h⟩
  rw [Block.lenOk_iff, minLen]
  omega

end Sys2Proof.Proofs
end

section
/-! SUPPORT. The host reads (spec 45_host_reads.md R93 to R104): what a read leaves, and the fields of STATUS and DIAG, the two
bytes that are put together from several elements. -/

namespace Sys2Proof.Machine

/-- A read of any address answers the register's byte and writes nothing but the answer (R93). -/
theorem exec_read (a : RegAddr) (s : State) :
    exec (rdInstr a) s = .next { s with out := ⟨none, some (s.block.readReg s.cfg a)⟩ } :=
  (EventArm.read a).exec_eq

/-- The bits of three zeros and five flags put together, whatever the flags are. -/
theorem bits_of_fiveFlags (f4 f3 f2 f1 f0 : Bool) (v : Byte)
    (hv : v = 0#3 ++ BitVec.ofBool f4 ++ BitVec.ofBool f3 ++ BitVec.ofBool f2 ++ BitVec.ofBool f1 ++ BitVec.ofBool f0) :
    v[0] = f0 ∧ v[1] = f1 ∧ v[2] = f2 ∧ v[3] = f3 ∧ v[4] = f4 ∧ v[5] = false ∧ v[6] = false ∧ v[7] = false := by
  subst hv
  revert f4 f3 f2 f1 f0
  decide

/-- Each flag of STATUS stands at its own bit (R94). -/
theorem Block.statusByte_bits (c : Config) (b : Block) :
    (b.statusByte c)[0] = b.ready ∧ (b.statusByte c)[1] = b.armed ∧ (b.statusByte c)[2] = b.lenOk c ∧
    (b.statusByte c)[3] = b.csumOk ∧ (b.statusByte c)[4] = b.valid c ∧
    (b.statusByte c)[5] = false ∧ (b.statusByte c)[6] = false ∧ (b.statusByte c)[7] = false :=
  bits_of_fiveFlags (b.valid c) b.csumOk (b.lenOk c) b.armed b.ready _ rfl

/-- The fields of three zeros, two flags and a three-bit code put together, whatever they are. -/
theorem fields_of_twoFlags_code (f4 f3 : Bool) (k : BitVec 3) (v : Byte)
    (hv : v = 0#3 ++ BitVec.ofBool f4 ++ BitVec.ofBool f3 ++ k) :
    v.extractLsb' 0 3 = k ∧ v[3] = f3 ∧ v[4] = f4 ∧ v[5] = false ∧ v[6] = false ∧ v[7] = false := by
  subst hv
  revert f4 f3 k
  decide

/-- The phase code and the latch stand in their own fields of DIAG (R98). -/
theorem Block.diagByte_fields (b : Block) :
    b.diagByte.extractLsb' 0 3 = b.fstate.code ∧ b.diagByte[3] = b.hp_valid ∧ b.diagByte[4] = b.hp_class ∧
    b.diagByte[5] = false ∧ b.diagByte[6] = false ∧ b.diagByte[7] = false :=
  fields_of_twoFlags_code b.hp_class b.hp_valid b.fstate.code _ rfl

/-- The six phases have the codes 0 to 5 (R7). -/
theorem FState.code_cases (f : FState) :
    (f = .idle → f.code = 0#3) ∧ (f = .preamble → f.code = 1) ∧ (f = .startBit → f.code = 2) ∧
    (f = .dataBit → f.code = 3) ∧ (f = .endBit → f.code = 4) ∧ (f = .done → f.code = 5) ∧ f.code ≠ 6 ∧ f.code ≠ 7 := by
  cases f <;> decide

end Sys2Proof.Machine
end

section
/-! CERTIFICATES. The statements of 45_host_reads.md. -/

namespace Sys2Proof.Proofs

open Sys2Proof.Machine

/-- Settles O36: a read writes nothing but the answer, and no register shows the answer. -/
theorem readsWriteNoState : Obligations.ReadsWriteNoState := fun s a =>
  ⟨s.block.readReg s.cfg a, rfl, exec_read a s, exec_read a { s with out := ⟨none, some (s.block.readReg s.cfg a)⟩ }⟩

/-- Settles O37: the read of address 0x0, whose byte has each flag at its own bit. -/
theorem statusReadsItsFlags : Obligations.StatusReadsItsFlags := fun s =>
  ⟨s.block.statusByte s.cfg, exec_read 0x0 s, s.block.statusByte_bits s.cfg⟩

/-- Settles O38: the reads of seven addresses; a three-bit counter keeps its value in a byte. -/
theorem plainRegisterReads : Obligations.PlainRegisterReads := by
  intro s
  have zeroExtended (x : BitVec 3) : (x.setWidth 8).toNat = x.toNat := BitVec.toNat_setWidth_of_le (by decide)
  exact ⟨exec_read 0x1 s, exec_read 0xF s, exec_read 0x3 s, exec_read 0x5 s, exec_read 0x7 s,
    ⟨s.block.len.setWidth 8, exec_read 0x2 s, zeroExtended s.block.len⟩,
    ⟨s.block.bitcnt.setWidth 8, exec_read 0x6 s, zeroExtended s.block.bitcnt⟩⟩

/-- Settles O39: the read of address 0x4, whose low field is the code of the phase. -/
theorem diagReadsTimingState : Obligations.DiagReadsTimingState := by
  intro s
  obtain ⟨phase, valid, cls, zero5, zero6, zero7⟩ := s.block.diagByte_fields
  refine ⟨s.block.diagByte, exec_read 0x4 s, valid, cls, zero5, zero6, zero7, ?_⟩
  rw [phase]
  exact s.block.fstate.code_cases

/-- Settles O40: the reads of the addresses 0x8 to 0xD. -/
theorem bufferReads : Obligations.BufferReads := fun s =>
  ⟨exec_read 0x8 s, exec_read 0x9 s, exec_read 0xA s, exec_read 0xB s, exec_read 0xC s, exec_read 0xD s⟩

/-- Settles O41: the read of address 0xE, by the codes of the thirteen outcomes. -/
theorem outcomeReadsItsCode : Obligations.OutcomeReadsItsCode := by
  intro s
  refine ⟨s.block.outcome.code.setWidth 8, exec_read 0xE s, ?_⟩
  cases s.block.outcome <;> rfl

end Sys2Proof.Proofs
end

section
/-! SUPPORT. What raises an error, and what moves the request line (spec 60_exceptions.md R110, R113, R115): when an EDGE takes
the error entry, by cause; what each event does to `ready`; and that no event of a block with room in its buffer stops. -/

namespace Sys2Proof.Machine

variable {c : Config} {b b' : Block}

/-- The framer takes the bit, or publishes, or takes the error entry for one of its three causes (R62). -/
theorem FramerArm.taken_or_raised {bit : Bool} (arm : FramerArm c bit b b') :
    b'.outcome = bitCode bit ∨ b'.outcome = .packet ∨
      (b' = b.frameError .errPreamble ∧ bit = false ∧ b.fstate = .preamble ∧ b.pcount.toNat < c.preambleMin) ∨
      (b' = b.frameError .errTooLong ∧ bit = false ∧ b.fstate = .endBit) ∨
      (b' = b.frameError .errDone ∧ b.fstate = .done) := by
  cases arm with
  | complete => exact .inr (.inl rfl)
  | tooShort hf hb hp => exact .inr (.inr (.inl ⟨rfl, hb, hf, hp⟩))
  | tooLong hf hb => exact .inr (.inr (.inr (.inl ⟨rfl, hb, hf⟩)))
  | inDone hf => exact .inr (.inr (.inr (.inr ⟨rfl, hf⟩)))
  | dataNext | byteDone => exact .inl rfl
  | idleZero _ hb | idleOne _ hb | preambleOne _ hb | frameBegin _ hb | startZero _ hb =>
    subst hb
    exact .inl rfl

/-- An EDGE of width `w` fails the check that raises `cause`, and passes the checks before it (R113). -/
def Block.Raises (c : Config) (w : Width) (b : Block) (cause : OutcomeCode) : Prop :=
  match cause with
  | .errWidth => b.armed = true ∧ classify c w = .invalid
  | .errPhase => b.armed = true ∧ b.hp_valid = true ∧ classify c w = halfClass (!b.hp_class) ∧
      b.fstate ≠ .idle ∧ b.fstate ≠ .preamble
  | .errPreamble => b.armed = true ∧ b.hp_valid = true ∧ b.hp_class = false ∧ classify c w = .zero ∧
      b.fstate = .preamble ∧ b.pcount.toNat < c.preambleMin
  | .errTooLong => b.armed = true ∧ b.hp_valid = true ∧ b.hp_class = false ∧ classify c w = .zero ∧ b.fstate = .endBit
  | .errDone => b.armed = true ∧ b.hp_valid = true ∧ classify c w = halfClass b.hp_class ∧ b.fstate = .done
  | _ => False

/-- Only a block that captures raises an error (R52). -/
theorem Block.Raises.armed {w : Width} {cause : OutcomeCode} (h : b.Raises c w cause) : b.armed = true := by
  cases cause
  case errWidth | errPhase | errPreamble | errTooLong | errDone => exact h.1
  all_goals exact h.elim

/-- The check of `cause` failing leads EDGE to the error entry of that cause (R110, R113). -/
theorem Block.Raises.edgeArm {w : Width} {cause : OutcomeCode} (h : b.Raises c w cause) :
    EdgeArm c w b (b.frameError cause) := by
  cases cause
  case errWidth =>
    obtain ⟨ha, hc⟩ := h
    exact .badWidth ha hc
  case errPhase =>
    obtain ⟨ha, hv, hc, notIdle, notPreamble⟩ := h
    exact .badPhase ha (!b.hp_class) hc hv (by simp) (not_or.2 ⟨notIdle, notPreamble⟩)
  case errPreamble =>
    obtain ⟨ha, hv, hk, hc, hf, hp⟩ := h
    exact .bit ha (hk ▸ hc) hv _ (.tooShort hf hk hp)
  case errTooLong =>
    obtain ⟨ha, hv, hk, hc, hf⟩ := h
    exact .bit ha (hk ▸ hc) hv _ (.tooLong hf hk)
  case errDone =>
    obtain ⟨ha, hv, hc, hf⟩ := h
    exact .bit ha hc hv _ (.inDone hf)
  all_goals exact h.elim

/-- An EDGE that latches an error code failed that code's check, and took the error entry (R110, R113). -/
theorem EdgeArm.raises_of_isError {w : Width} (arm : EdgeArm c w b b') (he : b'.outcome.isError = true) :
    b.Raises c w b'.outcome ∧ b' = b.frameError b'.outcome := by
  cases arm with
  | ignored | firstHalf | resync => exact nomatch he
  | badWidth ha hc => exact ⟨⟨ha, hc⟩, rfl⟩
  | badPhase ha cls hc hv hm hp =>
    obtain ⟨notIdle, notPreamble⟩ := not_or.1 hp
    obtain rfl : cls = !b.hp_class := Bool.eq_not.2 (Ne.symm hm)
    exact ⟨⟨ha, hv, hc, notIdle, notPreamble⟩, rfl⟩
  | bit ha hc hv _ hb =>
    obtain ho | ho | ⟨rfl, hk, hf, hp⟩ | ⟨rfl, hk, hf⟩ | ⟨rfl, hf⟩ := hb.taken_or_raised
    · have taken : ∀ bit, (bitCode bit).isError = false := by decide
      rw [ho, taken] at he
      cases he
    · rw [ho] at he
      cases he
    · exact ⟨⟨ha, hv, hk, by rwa [hk] at hc, hf, hp⟩, rfl⟩
    · exact ⟨⟨ha, hv, hk, by rwa [hk] at hc, hf⟩, rfl⟩
    · exact ⟨⟨ha, hv, hc, hf⟩, rfl⟩

/-- EDGE has one result: two arms open to it lead to one block. -/
theorem EdgeArm.unique {w : Width} {b₁ b₂ : Block} (arm₁ : EdgeArm c w b b₁) (arm₂ : EdgeArm c w b b₂) : b₁ = b₂ :=
  Except.ok.inj (arm₁.edge_eq.symm.trans arm₂.edge_eq)

/-- An EDGE latches an error code exactly when that code's check fails (R113). -/
theorem EdgeArm.outcome_eq_iff_raises {w : Width} {cause : OutcomeCode} (arm : EdgeArm c w b b')
    (he : cause.isError = true) : b'.outcome = cause ↔ b.Raises c w cause := by
  constructor
  · rintro rfl
    exact (arm.raises_of_isError he).1
  · intro h
    rw [arm.unique h.edgeArm, Block.frameError_outcome]

/-- An EDGE is ignored exactly when capture is disabled (R52). -/
theorem EdgeArm.outcome_eq_ignored_iff {w : Width} (arm : EdgeArm c w b b') :
    b'.outcome = .ignored ↔ b.armed = false := by
  refine ⟨fun ho => ?_, fun ha => by rw [arm.eq_ignored ha, Block.emit_outcome]⟩
  cases arm with
  | ignored ha => exact ha
  | badWidth | firstHalf | resync | badPhase => cases ho
  | bit _ _ _ _ hb =>
    obtain taken | packet | ⟨rfl, -⟩ | ⟨rfl, -⟩ | ⟨rfl, -⟩ := hb.taken_or_raised
    · have notIgnored : ∀ bit, bitCode bit ≠ .ignored := by decide
      exact absurd (taken.symm.trans ho) (notIgnored _)
    · exact nomatch packet.symm.trans ho
    all_goals cases ho

/-- The framer sets `ready` when it publishes, and else keeps it (R16, R76). -/
theorem FramerArm.ready_cases {bit : Bool} (arm : FramerArm c bit b b') :
    (b'.outcome ≠ .packet ∧ b'.ready = b.ready) ∨ (b'.outcome = .packet ∧ b'.ready = true) := by
  have taken : ∀ bit, bitCode bit ≠ .packet := by decide
  cases arm
  case complete => exact .inr ⟨rfl, rfl⟩
  case dataNext | byteDone => exact .inl ⟨taken bit, rfl⟩
  all_goals exact .inl ⟨nofun, rfl⟩

/-- EDGE sets `ready` when it publishes, and else keeps it (R16). -/
theorem EdgeArm.ready_cases {w : Width} (arm : EdgeArm c w b b') :
    (b'.outcome ≠ .packet ∧ b'.ready = b.ready) ∨ (b'.outcome = .packet ∧ b'.ready = true) := by
  cases arm
  case bit hb => exact hb.ready_cases
  all_goals exact .inl ⟨nofun, rfl⟩

/-- What an event does to `ready`: it keeps it, publishes a packet, or is CLEAR_READY or START (R16, R82, R83). -/
theorem EventArm.ready_cases {i : Instr} {o : Output} (arm : EventArm c b i b' o) :
    (o.emitted ≠ some .packet ∧ b'.ready = b.ready) ∨ (o.emitted = some .packet ∧ b'.ready = true) ∨
      (o.emitted = none ∧ b'.ready = false ∧ ∃ d, i = .wrControl d ∧ (d[0] = true ∨ d[1] = true)) := by
  cases arm with
  | edge w _ he =>
    obtain ⟨ho, kept⟩ | ⟨ho, set⟩ := he.ready_cases
    · exact .inl ⟨fun h => ho (Option.some.inj h), kept⟩
    · exact .inr (.inl ⟨congrArg some ho, set⟩)
  | ovf => exact .inl ⟨nofun, rfl⟩
  | start d h0 => exact .inr (.inr ⟨rfl, rfl, d, rfl, .inl h0⟩)
  | clearReady d h0 h1 => exact .inr (.inr ⟨rfl, rfl, d, rfl, .inr h1⟩)
  | noEffect a d hn => exact .inl ⟨nofun, rfl⟩
  | read a => exact .inl ⟨nofun, rfl⟩

/-- What a step does to `ready`: it keeps it, publishes a packet, or is power-on reset, CLEAR_READY or START (R16, R126). -/
theorem StepArm.ready_cases {s t : State} (arm : StepArm s t) :
    (t.out.emitted ≠ some .packet ∧ t.block.ready = s.block.ready) ∨
      (t.out.emitted = some .packet ∧ t.block.ready = true) ∨
      (t.out.emitted = none ∧ t.block.ready = false ∧
        ((∃ draw rest, s.inputs = .powerOn draw :: rest) ∨
          ∃ w rest d, s.inputs = .event w :: rest ∧ decode w = .ok (.wrControl d) ∧ (d[0] = true ∨ d[1] = true))) := by
  cases arm with
  | wait hi => exact .inl ⟨nofun, rfl⟩
  | powerOn draw rest hi => exact .inr (.inr ⟨rfl, rfl, .inl ⟨draw, rest, hi⟩⟩)
  | event w rest i b o hi hd he =>
    obtain kept | packet | ⟨silent, cleared, d, rfl, command⟩ := he.ready_cases
    · exact .inl kept
    · exact .inr (.inl packet)
    · exact .inr (.inr ⟨silent, cleared, .inr ⟨w, rest, d, hi, hd, command⟩⟩)

/-- Every event completes from a state that has room in the buffer where a byte may complete (R70, R116). -/
theorem exec_completes (i : Instr) {s : State} (room : s.block.fstate = .dataBit → s.block.len.toNat < 6) :
    ∃ t, exec i s = .next t := by
  obtain ⟨w, rfl⟩ | ⟨-, he⟩ | ⟨_, _, -, he⟩ | ⟨_, -, he⟩ := exec_cases i s
  · obtain ⟨b, hb⟩ := Block.edge_completes s.cfg w s.block room
    exact ⟨_, (EventArm.edge w b (Block.edge_ok hb)).exec_eq⟩
  all_goals exact ⟨_, he⟩

end Sys2Proof.Machine
end

section
/-! CERTIFICATES. The statements of 60_exceptions.md. -/

namespace Sys2Proof.Proofs

open Sys2Proof.Machine

/-- Settles O29: the code an EDGE emits is the one its arm latches, IGNORED at the capture gate and an error code where that
code's check fails. -/
theorem edgeChecksInOrder : Obligations.EdgeChecksInOrder := by
  intro s t w h
  obtain ⟨b, arm, rfl⟩ := exec_edge_next h
  have raises {cause : OutcomeCode} (he : cause.isError = true) :
      some b.outcome = some cause ↔ s.block.Raises s.cfg w cause :=
    Option.some_inj.trans (arm.outcome_eq_iff_raises he)
  exact ⟨Option.some_inj.trans arm.outcome_eq_ignored_iff, raises rfl, raises rfl, raises rfl, raises rfl, raises rfl⟩

/-- Settles O30: of the arms of an event only EDGE's emit an error code, and they leave the error entry's block. -/
theorem errorEntryIsPrecise : Obligations.ErrorEntryIsPrecise := by
  intro i s t cause h emitted he
  obtain ⟨b, o, arm, rfl⟩ := exec_next h
  cases arm with
  | edge w _ arm =>
    obtain rfl : b.outcome = cause := Option.some.inj emitted
    obtain ⟨raises, entry⟩ := arm.raises_of_isError he
    refine ⟨⟨w, rfl⟩, raises.armed, ?_⟩
    exact congrArg (fun m => s.settle m (Output.event b.outcome)) entry
  | ovf =>
    obtain rfl : .ovfReset = cause := Option.some.inj emitted
    cases he
  | start | clearReady | noEffect | read => cases emitted

/-- Settles O43: a step that keeps `ready` publishes nothing, one that publishes asserts it, and only power-on reset,
CLEAR_READY and START drop it. -/
theorem requestLineFollowsPacket : Obligations.RequestLineFollowsPacket := by
  intro s t hst
  obtain ⟨-, arm⟩ := step_next hst
  simp only [Block.irq, true_and]
  obtain ⟨other, kept⟩ | ⟨packet, set⟩ | ⟨silent, cleared, cause⟩ := arm.ready_cases
  · simp +contextual [other, kept]
  · simp [packet, set]
  · exact ⟨by simp [silent], by simp [cleared], fun _ _ => cause⟩

/-- Settles O52: waiting, power-on reset and every event complete from a safe state, which has room for a byte; what is left
is a word that the decoder rejects. -/
theorem safeStatesNeverFault : Obligations.SafeStatesNeverFault := by
  intro s hs
  cases hi : s.inputs with
  | nil => exact .inl ⟨_, step_wait hs.cfg_wf hi⟩
  | cons input rest =>
    cases input with
    | powerOn draw => exact .inl ⟨_, step_powerOn hs.cfg_wf hi⟩
    | event w =>
      have runs := step_event hs.cfg_wf hi
      cases hd : decode w with
      | ok i =>
        obtain ⟨t, ht⟩ := exec_completes i (s := s.withInputs rest) hs.room
        exact .inl ⟨t, runs.trans ((stepEvent_ok hd _).trans ht)⟩
      | error r => exact .inr ⟨w, rest, r, rfl, hd, runs.trans (stepEvent_error hd _)⟩

end Sys2Proof.Proofs
end

section
/-! SUPPORT. A run of ONE half-bits that begins in Idle, and the two ZERO half-bits after it (spec 70_reset_and_hazards.md
R133): every second ONE completes a one-bit, and a half of the other class left in the latch by the step before is
replaced (41_bit_assembler.md R57 to R59). -/

namespace Sys2Proof.Machine

variable {c : Config} {b : Block}

/-- The first step of a run. -/
theorem run_succ {s t : State} (k : Nat) (h : step s = .next t) : run (k + 1) s = run k t := by
  rw [run, h]

/-- In the preamble phase a half that does not complete a bit is latched, over an empty latch or over a half of the other
class (R57, R59). -/
theorem exists_edgeArm_latch {w : Width} {cls : Bool} (ha : b.armed = true) (hp : b.fstate = .idle ∨ b.fstate = .preamble)
    (hl : ¬(b.hp_valid = true ∧ b.hp_class = cls)) (hc : classify c w = halfClass cls) :
    ∃ o, EdgeArm c w b { b with hp_valid := true, hp_class := cls, outcome := o } := by
  cases hv : b.hp_valid with
  | false => exact ⟨.half, .firstHalf ha cls hc hv⟩
  | true =>
    have resynced := EdgeArm.resync ha cls hc hv (fun hk => hl ⟨hv, hk⟩) hp
    exact ⟨.resync, by simpa only [hv] using resynced⟩

/-- What `k` ONE half-bits leave of an Idle block without a latched ONE (R133): a one-bit counted for every two of them, and
a ONE in the latch after an odd number. -/
structure Block.HeardOnes (k : Nat) (b : Block) : Prop where
  armed : b.armed = true
  fstate_eq : b.fstate = if k < 2 then .idle else .preamble
  pcount_eq : b.pcount.toNat = min (k / 2) 255
  latched_iff : b.hp_valid = true ∧ b.hp_class = true ↔ k % 2 = 1

theorem Block.HeardOnes.preamblePhase {k : Nat} (h : b.HeardOnes k) : b.fstate = .idle ∨ b.fstate = .preamble := by
  rw [h.fstate_eq]
  split
  · exact .inl rfl
  · exact .inr rfl

/-- A safe, armed Idle block without a latched ONE has counted none (R23.3). -/
theorem Block.Inv.heardOnes_zero (h : b.Inv c) (ha : b.armed = true) (hf : b.fstate = .idle)
    (hl : ¬(b.hp_valid = true ∧ b.hp_class = true)) : b.HeardOnes 0 where
  armed := ha
  fstate_eq := hf
  pcount_eq := by
    have zero : b.pcount = 0 := not_imp_comm.1 h.pcount_preamble (by simp [hf])
    simp [zero]
  latched_iff := by simp [hl]

/-- The second half of a one-bit completes it: the first one-bit begins the preamble, the others count up to 255 (R58, R64,
R65). -/
theorem Block.HeardOnes.one_completes {k : Nat} (hc : c.FixedOk) (h : b.HeardOnes k) (odd : k % 2 = 1) :
    ∃ b', FramerArm c true { b with hp_valid := false, hp_class := false } b' ∧ b'.HeardOnes (k + 1) := by
  obtain ⟨-, -, -, -, -, hmax⟩ := hc
  obtain ⟨ha, hf, hp, -⟩ := h
  by_cases first : k < 2
  · obtain rfl : k = 1 := by omega
    exact ⟨_, .idleOne hf rfl, ha, rfl, rfl, by simp⟩
  · rw [if_neg first] at hf
    refine ⟨_, .preambleOne hf rfl, ha, hf.trans (if_neg (by omega)).symm, ?_, iff_of_false nofun (by omega)⟩
    simp only [hmax, hp, BitVec.toNat_ofNat]
    omega

/-- One more ONE half-bit: the first half of a one-bit is latched, the second completes the bit (R57 to R59). -/
theorem Block.HeardOnes.edge_one {k : Nat} {w : Width} (hc : c.FixedOk) (h : b.HeardOnes k) (hw : classify c w = .one) :
    ∃ b', b.edge c w = .ok b' ∧ b'.HeardOnes (k + 1) := by
  obtain even | odd := Nat.mod_two_eq_zero_or_one k
  · have unlatched : ¬(b.hp_valid = true ∧ b.hp_class = true) := by rw [h.latched_iff]; omega
    obtain ⟨o, arm⟩ := exists_edgeArm_latch h.armed h.preamblePhase unlatched hw
    exact ⟨_, arm.edge_eq, h.armed, h.fstate_eq.trans (if_congr (by omega) rfl rfl), h.pcount_eq.trans (by omega),
      iff_of_true ⟨rfl, rfl⟩ (by omega)⟩
  · obtain ⟨hv, hk⟩ := h.latched_iff.2 odd
    obtain ⟨b', framed, heard⟩ := h.one_completes hc odd
    exact ⟨b', (EdgeArm.bit h.armed (hk ▸ hw) hv b' (hk ▸ framed)).edge_eq, heard⟩

/-- A run of ONE half-bits (R133). -/
theorem run_ones {s : State} {k : Nat} {ones : List Width} {rest : List Input} (hw : s.cfg.WellFormed)
    (h : s.block.HeardOnes k) (hc : ∀ w ∈ ones, classify s.cfg w = .one) (hi : s.inputs = ones.map edgeInput ++ rest) :
    ∃ m, run ones.length s = .next m ∧ m.cfg = s.cfg ∧ m.inputs = rest ∧ m.block.HeardOnes (k + ones.length) := by
  obtain ⟨-, fixed⟩ := (config_wf_iff s.cfg).1 hw
  induction ones generalizing s k with
  | nil => exact ⟨s, rfl, rfl, hi, h⟩
  | cons w ones ih =>
    obtain ⟨one, hc⟩ := List.forall_mem_cons.1 hc
    obtain ⟨b, hb, heard⟩ := h.edge_one fixed one
    have first := step_edgeInput hw hi hb
    obtain ⟨m, later, hcfg, hin, hm⟩ :=
      ih (s := (s.withInputs (ones.map edgeInput ++ rest)).finishEvent b) hw heard hc rfl fixed
    rw [Nat.add_right_comm] at hm
    exact ⟨m, (run_succ _ first).trans later, hcfg, hin, hm⟩

/-- A zero-bit in the preamble phase begins a frame exactly when 12 one-bits or more are counted (R63, R66, R67). -/
theorem exists_framerArm_zero (hc : c.FixedOk) (hp : b.fstate = .idle ∨ b.fstate = .preamble) :
    ∃ b', FramerArm c false b b' ∧ b'.armed = b.armed ∧ (b.hp_valid = false → b'.hp_valid = false) ∧
      (b'.fstate = .dataBit ↔ b.fstate = .preamble ∧ 12 ≤ b.pcount.toNat) := by
  obtain ⟨-, hmin, -⟩ := hc
  obtain hf | hf := hp
  · exact ⟨_, .idleZero hf rfl, rfl, id, by simp [hf]⟩
  · by_cases short : b.pcount.toNat < 12
    · exact ⟨_, .tooShort hf rfl (hmin ▸ short), rfl, fun _ => rfl, by simp [short]⟩
    · exact ⟨_, .frameBegin hf rfl (hmin ▸ Nat.le_of_not_lt short), rfl, id, by simp [hf, Nat.le_of_not_lt short]⟩

/-- Of two ZERO half-bits in the preamble phase one completes a zero-bit, the first of them where a ZERO was latched and the
second elsewhere (R56). -/
theorem Block.edge_two_zeros {z₁ z₂ : Width} (hc : c.FixedOk) (ha : b.armed = true)
    (hp : b.fstate = .idle ∨ b.fstate = .preamble) (h₁ : classify c z₁ = .zero) (h₂ : classify c z₂ = .zero) :
    ∃ m b', b.edge c z₁ = .ok m ∧ m.edge c z₂ = .ok b' ∧
      (b'.fstate = .dataBit ↔ b.fstate = .preamble ∧ 12 ≤ b.pcount.toNat) := by
  obtain ⟨m, framed, armed, unlatched, begins⟩ :=
    exists_framerArm_zero (b := { b with hp_valid := false, hp_class := false }) hc hp
  by_cases hl : b.hp_valid = true ∧ b.hp_class = false
  · obtain ⟨hv, hk⟩ := hl
    have first : EdgeArm c z₁ b m := .bit ha (hk ▸ h₁) hv m (hk ▸ framed)
    have second := EdgeArm.firstHalf (armed.trans ha) false h₂ (unlatched rfl)
    exact ⟨m, _, first.edge_eq, second.edge_eq, begins⟩
  · obtain ⟨o, first⟩ := exists_edgeArm_latch ha hp hl h₁
    obtain ⟨b', framed, -, -, begins⟩ :=
      exists_framerArm_zero (b := { b with hp_valid := false, hp_class := false, outcome := o }) hc hp
    have second := EdgeArm.bit (b := { b with hp_valid := true, hp_class := false, outcome := o }) ha h₂ rfl b' framed
    exact ⟨_, b', first.edge_eq, second.edge_eq, begins⟩

/-- Two ZERO half-bits in the preamble phase, as a run (R133). -/
theorem run_two_zeros {s : State} {z₁ z₂ : Width} {rest : List Input} (hw : s.cfg.WellFormed)
    (ha : s.block.armed = true) (hp : s.block.fstate = .idle ∨ s.block.fstate = .preamble)
    (h₁ : classify s.cfg z₁ = .zero) (h₂ : classify s.cfg z₂ = .zero)
    (hi : s.inputs = edgeInput z₁ :: edgeInput z₂ :: rest) :
    ∃ t, run 2 s = .next t ∧ t.inputs = rest ∧
      (t.block.fstate = .dataBit ↔ s.block.fstate = .preamble ∧ 12 ≤ s.block.pcount.toNat) := by
  obtain ⟨-, fixed⟩ := (config_wf_iff s.cfg).1 hw
  obtain ⟨m, b', hm, hb, begins⟩ := Block.edge_two_zeros fixed ha hp h₁ h₂
  have first := step_edgeInput hw hi hm
  have second := step_edgeInput (s := (s.withInputs (edgeInput z₂ :: rest)).finishEvent m) hw rfl hb
  exact ⟨_, (run_succ 1 first).trans (run_succ 0 second), rfl, begins⟩

/-- After `k` ONE half-bits a long enough preamble is counted exactly when `k` holds 12 pairs (R133). -/
theorem Block.HeardOnes.counted_iff {k : Nat} (h : b.HeardOnes k) :
    (b.fstate = .preamble ∧ 12 ≤ b.pcount.toNat) ↔ 12 ≤ k / 2 := by
  rw [h.fstate_eq, h.pcount_eq]
  split
  · exact iff_of_false (fun h => nomatch h.1) (by omega)
  · simp

end Sys2Proof.Machine
end

section
/-! SUPPORT. A machine before its first START (spec 70_reset_and_hazards.md R127). -/

namespace Sys2Proof.Machine

/-- No START has come and none is presented: capture is off, nothing is published, and the last step emitted nothing that a
capturing block emits (R52, R127). -/
structure State.Unstarted (s : State) : Prop where
  disarmed : s.block.armed = false
  unready : s.block.ready = false
  empty : s.block.len = 0
  emitted : s.out.emitted = none ∨ s.out.emitted = some .ignored ∨ s.out.emitted = some .ovfReset
  no_start : ∀ w d, .event w ∈ s.inputs → decode w = .ok (.wrControl d) → d[0] = false

/-- Before START an event leaves capture off and publishes nothing; an EDGE is ignored (R127). -/
theorem EventArm.unstarted {s : State} {i : Instr} {b' : Block} {o : Output} (h : s.Unstarted)
    (arm : EventArm s.cfg s.block i b' o) (notStart : ∀ d, i = .wrControl d → d[0] = false) :
    (s.settle b' o).Unstarted := by
  obtain ⟨disarmed, unready, empty, -, no_start⟩ := h
  cases arm with
  | edge w _ he =>
    obtain rfl := he.eq_ignored disarmed
    exact ⟨disarmed, unready, empty, .inr (.inl rfl), no_start⟩
  | ovf => exact ⟨disarmed, unready, empty, .inr (.inr rfl), no_start⟩
  | start d hd => exact nomatch hd.symm.trans (notStart d rfl)
  | clearReady d h0 h1 => exact ⟨disarmed, rfl, empty, .inl rfl, no_start⟩
  | noEffect a d hn => exact ⟨disarmed, unready, empty, .inl rfl, no_start⟩
  | read a => exact ⟨disarmed, unready, empty, .inl rfl, no_start⟩

/-- Taking an input keeps the machine before its first START. -/
theorem State.Unstarted.withInputs {s : State} {input : Input} {rest : List Input} (h : s.Unstarted)
    (hi : s.inputs = input :: rest) : (s.withInputs rest).Unstarted :=
  { h with no_start := fun w d hw => h.no_start w d (hi ▸ List.mem_cons_of_mem input hw) }

/-- Every step keeps the machine before its first START (R127). -/
theorem StepArm.unstarted {s t : State} (h : s.Unstarted) (arm : StepArm s t) : t.Unstarted := by
  cases arm with
  | wait hi => exact { h with emitted := .inl rfl }
  | powerOn draw rest hi => exact ⟨rfl, rfl, rfl, .inl rfl, (h.withInputs hi).no_start⟩
  | event w rest i b o hi hd he =>
    exact EventArm.unstarted (h.withInputs hi) he
      fun d hc => h.no_start w d (hi ▸ List.mem_cons_self) (hc ▸ hd)

/-- A run keeps the machine before its first START. -/
theorem State.Unstarted.run {k : Nat} {s t : State} (h : s.Unstarted) (hr : run k s = .next t) : t.Unstarted := by
  induction k generalizing s with
  | zero => exact Host.Outcome.next.inj hr ▸ h
  | succ k ih =>
    obtain ⟨m, _, hs, tail, -⟩ := State.RunsTo.uncons ⟨hr, rfl⟩
    obtain ⟨-, arm⟩ := step_next hs
    exact ih (arm.unstarted h) tail.run_eq

end Sys2Proof.Machine
end

section
/-! SUPPORT. The consumer's reads (spec 70_reset_and_hazards.md R128): a list of register reads returns the registers' bytes,
and BUF0 to BUF5 show the packet. -/

namespace Sys2Proof.Machine

/-- Register reads one after the other return each register's byte: none of them writes what another shows (R93). -/
theorem readBytes_map_rdInstr (as : List RegAddr) (s : State) :
    readBytes (as.map rdInstr) s = some (as.map (s.block.readReg s.cfg)) := by
  induction as generalizing s with
  | nil => rfl
  | cons a as ih =>
    rw [List.map_cons, readBytes, exec_read]
    dsimp only
    rw [ih]
    rfl

/-- The consumer's reads as a list of addresses (R128). -/
theorem consumerReads_eq_map (n : Nat) : consumerReads n =
    (0x2#4 :: ((List.range n).map (fun i => BitVec.ofNat 4 (8 + i)) ++ [0x0#4])).map rdInstr := by
  rw [List.map_cons, List.map_append, List.map_map]
  rfl

/-- The registers from 0x8 on show the buffer (R102). -/
theorem Block.readReg_buf (c : Config) (b : Block) {i : Nat} (hi : i < 6) :
    b.readReg c (BitVec.ofNat 4 (8 + i)) = b.buf[i] := by
  interval_cases i <;> rfl

theorem Block.length_packet {b : Block} (h : b.len.toNat ≤ 6) : b.packet.length = b.len.toNat := by
  simpa [Block.packet] using h

/-- BUF0 to BUF(len-1) show the packet (R102, R128). -/
theorem Block.map_readReg_eq_packet (c : Config) {b : Block} (h : b.len.toNat ≤ 6) :
    ((List.range b.len.toNat).map fun i => BitVec.ofNat 4 (8 + i)).map (b.readReg c) = b.packet := by
  refine List.ext_getElem (by simp [Block.length_packet h]) fun i hi _ => ?_
  have below : i < 6 := Nat.lt_of_lt_of_le (by simpa using hi) h
  simp [Block.packet, Block.readReg_buf c b below]

end Sys2Proof.Machine
end

section
/-! CERTIFICATES. The statements of 70_reset_and_hazards.md. -/

namespace Sys2Proof.Proofs

open Sys2Proof.Machine

/-- Settles O57: every two ONE half-bits count one one-bit, whatever the latch held, and one of the two ZERO half-bits after
them completes the zero-bit that begins a frame. -/
theorem preambleCountsHalfTheOnes : Obligations.PreambleCountsHalfTheOnes := by
  intro s ones z₁ z₂ rest hs ha hf hl hones h₁ h₂ hi
  have start := hs.block_inv.heardOnes_zero ha hf hl
  obtain ⟨m, hm, hcfg, hin, heard⟩ := run_ones hs.cfg_wf start hones hi
  rw [Nat.zero_add] at heard
  obtain ⟨t, ht, hrest, begins⟩ :=
    run_two_zeros (hcfg ▸ hs.cfg_wf) heard.armed heard.preamblePhase (hcfg ▸ h₁) (hcfg ▸ h₂) hin
  rw [heard.counted_iff] at begins
  refine ⟨m, t, hm, heard.pcount_eq, ht, hrest, begins, fun P _ hP => ?_⟩
  rw [begins]
  omega

/-- Settles O48: the reads return the bytes of their registers, which for BUF0 to BUF(len-1) are the packet's. -/
theorem consumerReadsThePacket : Obligations.ConsumerReadsThePacket := by
  intro s hs hr
  obtain ⟨-, -, -, hmax, -⟩ := (config_wf_iff s.cfg).1 hs.cfg_wf
  have hlen : s.block.len.toNat ≤ 6 := hmax ▸ hs.block_inv.len_le
  have length := Block.length_packet hlen
  obtain ⟨ready, -, -, -, valid, -⟩ := s.block.statusByte_bits s.cfg
  refine ⟨s.block.statusByte s.cfg, ready.trans hr, ?_, ?_, length⟩
  · rw [valid, Block.valid, hr, Bool.true_and]
  · rw [consumerReads_eq_map, readBytes_map_rdInstr, List.map_cons, List.map_append,
      Block.map_readReg_eq_packet s.cfg hlen, length, BitVec.ofNat_toNat]
    rfl

/-- Settles O53: power-on leaves capture off, and every step without a START keeps it off. -/
theorem nothingDecodedBeforeStart : Obligations.NothingDecodedBeforeStart := by
  intro c inputs _ notStart k t ht
  have start : (State.powerOn c inputs).Unstarted := ⟨rfl, rfl, rfl, .inl rfl, notStart⟩
  obtain ⟨disarmed, unready, empty, emitted, -⟩ := start.run ht
  exact ⟨disarmed, unready, empty, emitted⟩

/-- Settles O1: of the flags of STATUS only `csum_ok` is set, the XOR of no byte being zero and `VALID_LEN_MIN` being above
zero; the other registers show zeros. -/
theorem powerOnResetState : Obligations.PowerOnResetState := by
  intro c inputs hc
  obtain ⟨-, -, -, -, -, minLen, -⟩ := (config_wf_iff c).1 hc
  have short : (Block.powerOn c.bufInit).lenOk c = false := by simp [Block.lenOk, minLen]
  have xor : (Block.powerOn c.bufInit).pxor = 0 := Block.pxor_of_len_zero rfl
  have status : (Block.powerOn c.bufInit).statusByte c = 0x08 := by
    simp [Block.statusByte, Block.valid, Block.csumOk, short, xor]
  have diag : (Block.powerOn c.bufInit).diagByte = 0x00 := by simp [Block.diagByte, FState.code]
  exact ⟨rfl, status, diag, rfl, xor, rfl, rfl⟩

/-- Settles O2: the step equation of power-on reset. -/
theorem powerOnResetBetweenEvents : Obligations.PowerOnResetBetweenEvents := fun _ _ _ hw hi =>
  step_powerOn hw hi

end Sys2Proof.Proofs
end
